-- ==== Sys2Proof/Word.lean ====
section
/-!
DEFINITION. The word and buffer types of the CCFM block (00_scope.md R9, R13, R14).
Every value is unsigned; a buffer is a fixed number of bytes, byte 0 first on the transport.
-/

namespace Sys2Proof

/-- One byte: an entry of the spaces BLK and FRM (20_memory.md R72, R73). -/
abbrev Byte := BitVec 8

/-- A 32-bit value: the CRC accumulator or one entry of the table ROM (10_state.md R31, R45). -/
abbrev Word32 := BitVec 32

/-- A 16-byte descriptor block, `blk[0]` first (10_state.md R33). -/
abbrev Block := Vector Byte 16

/-- A 64-byte frame, `frm[0]` first on the transport (20_memory.md R78). -/
abbrev Frame := Vector Byte 64

/-- A 7-byte token uid, a byte string in index order (20_memory.md R78). -/
abbrev Uid := Vector Byte 7

/-- A 320-byte figure image: 5 sectors of 4 blocks of 16 bytes (20_memory.md R75, 30_encoding.md R110). -/
abbrev Image := Vector Byte 320

end Sys2Proof
end

