-- ==== Sys2Proof/Config.lean ====
section
/-!
DEFINITION. What an implementation fixes (00_scope.md R9 to R12) and the free values of the model.
The open parameters of R11 and R12 are one record `Params`; every range the spec states is built into
the types, so that no value of `Params` is out of range. `Config.params` has no body: a statement about
it holds for every value of the record.
-/

namespace Sys2Proof

/-- Capacity of a queue of U3: a positive number of frames or `unbounded` (R11, D12).
`frames extra` is a capacity of `extra + 1`, so that no capacity is zero. -/
inductive Depth where
  | unbounded
  | frames (extra : Nat)
  deriving DecidableEq, Repr, Inhabited

/-- The number of frames a queue of this depth holds at most; `none` is no bound. -/
def Depth.capacity? : Depth → Option Nat
  | .unbounded => none
  | .frames extra => some (extra + 1)

/-- `len` frames fit a queue of this depth: the bound of 10_state.md R46, R47, R49. -/
def Depth.fits : Depth → Nat → Bool
  | .unbounded, _ => true
  | .frames extra, len => decide (len ≤ extra + 1)

/-- What stands at one of the first twelve bytes of a new figure's descriptor (30_encoding.md R110). -/
inductive DescriptorByte where
  /-- The random byte. -/
  | random
  /-- A fixed structural byte. -/
  | structural (v : Byte)
  /-- A byte of the fixed separator. -/
  | separator (v : Byte)
  /-- Byte `k` of `identity_type`. -/
  | identityType (k : Nat)
  /-- Byte `k` of `identity_id`. -/
  | identityId (k : Nat)
  deriving DecidableEq, Repr, Inhabited

namespace DescriptorByte

/-- The random byte. -/
def isRandom : DescriptorByte → Bool
  | .random => true
  | .structural _ | .separator _ | .identityType _ | .identityId _ => false

/-- A structural byte. -/
def isStructural : DescriptorByte → Bool
  | .structural _ => true
  | .random | .separator _ | .identityType _ | .identityId _ => false

/-- A separator byte. -/
def isSeparator : DescriptorByte → Bool
  | .separator _ => true
  | .random | .structural _ | .identityType _ | .identityId _ => false

/-- Which byte of `identity_type` stands here. -/
def typeIndex : DescriptorByte → Option Nat
  | .identityType k => some k
  | .random | .structural _ | .separator _ | .identityId _ => none

/-- Which byte of `identity_id` stands here. -/
def idIndex : DescriptorByte → Option Nat
  | .identityId k => some k
  | .random | .structural _ | .separator _ | .identityType _ => none

end DescriptorByte

/-- Bytes 0, 1, … of a field stand once each, in any order, and there is at least one. -/
def wholeField (indices : List Nat) : Bool := !indices.isEmpty && indices.isPerm (List.range indices.length)

/-- The twelve bytes are what R110 lists: one random byte, structural bytes, the whole of `identity_type`, a separator and
the whole of `identity_id`, at any positions and of any widths (91_not_in_source.md N9). -/
def descriptorListed (l : List DescriptorByte) : Bool :=
  l.countP DescriptorByte.isRandom == 1 && l.any DescriptorByte.isStructural && l.any DescriptorByte.isSeparator &&
    wholeField (l.filterMap DescriptorByte.typeIndex) && wholeField (l.filterMap DescriptorByte.idIndex)

/-- The parameters of the Builder (93_implementation_defined.md U19, 30_encoding.md R110). -/
structure Builder where
  /-- The structural byte at image offset 0. -/
  byte0 : Byte
  /-- The structural byte at image offset 6. -/
  byte6 : Byte
  /-- The structural byte at image offset 7. -/
  byte7 : Byte
  /-- The structural byte at image offset 8. -/
  byte8 : Byte
  /-- The byte at image offset 9, which the source does not mention (N9). -/
  byte9 : Byte
  /-- The structural byte at image offset 10. -/
  byte10 : Byte
  /-- What stands where in the descriptor; `Builder.layout` reads it. -/
  places : Vector DescriptorByte 12
  deriving DecidableEq, Repr, Inhabited

/-- The layout of descriptor bytes 0 to 11. Every arrangement that `descriptorListed` admits is one; another value of the
field stands for the arrangement written here, so that no layout is out of range (log entry 29). -/
def Builder.layout (b : Builder) : Vector DescriptorByte 12 :=
  if descriptorListed b.places.toList then b.places
  else
    #v[.random, .structural 0, .structural 0, .structural 0, .structural 0, .structural 0, .structural 0, .structural 0,
      .structural 0, .identityType 0, .separator 0, .identityId 0]

/-- The parameters the spec leaves OPEN (R11, R12): static, no operation changes one (10_state.md R42). -/
structure Params where
  /-- `RQ_DEPTH`, capacity of the reply queue (R11). -/
  rqDepth : Depth
  /-- `NQ_DEPTH`, capacity of the notification queue (R11). -/
  nqDepth : Depth
  /-- `BACKOFF_TICKS - 1`: the interval is a positive number of ticks (R11). -/
  backoffExtra : Nat
  /-- `RESP_MARKER`, byte 0 of a Response Frame (R12). -/
  respMarker : Byte
  /-- `NOTIF_MARKER` is `RESP_MARKER + 1 + notifGap`, hence distinct from it (R12). -/
  notifGap : Fin 255
  /-- `NOTIF_SUBTYPE[0]` (R12). -/
  subtype0 : Byte
  /-- `NOTIF_SUBTYPE[1]` (R12). -/
  subtype1 : Byte
  /-- `WAKE_PAYLOAD`: its first 59 bytes at most are used, so `2 ≤ WAKE_LEN ≤ 61` (R12). -/
  wakePayload : List Byte
  /-- `LIST_BASE_LEN - 2`: R12 states `LIST_BASE_LEN ≥ 2` and no upper bound. -/
  listBaseExtra : Nat
  /-- `NUM_SLOTS` is 8 (true) or 7 (false) (R12). -/
  eightSlots : Bool
  /-- `ENV_NOTIFY_WHEN_ASLEEP` (R12, D28). -/
  notifyWhenAsleep : Bool
  /-- The Event agent keeps its exclusion region while its PUSHN holds (70_reset_and_hazards.md R295). -/
  eventKeepsRegion : Bool
  /-- The Builder's parameters (93_implementation_defined.md U19). -/
  builder : Builder
  deriving DecidableEq, Repr, Inhabited

/-- `BACKOFF_TICKS` (R11). -/
def Params.backoffTicks (p : Params) : Nat := p.backoffExtra + 1

/-- `NOTIF_MARKER`, distinct from `RESP_MARKER` (R12). -/
def Params.notifMarker (p : Params) : Byte := p.respMarker + 1 + BitVec.ofNat 8 p.notifGap.val

/-- `WAKE_PAYLOAD`, `WAKE_LEN - 2` bytes (R12). -/
def Params.wakeBytes (p : Params) : List Byte := p.wakePayload.take 59

/-- `WAKE_LEN`, 2 to 61 (R12). -/
def Params.wakeLen (p : Params) : Nat := p.wakeBytes.length + 2

/-- `LIST_BASE_LEN`, at least 2 (R12). -/
def Params.listBaseLen (p : Params) : Nat := p.listBaseExtra + 2

/-- `NUM_SLOTS`, 7 or 8 (R12). -/
def Params.numSlots (p : Params) : Nat := if p.eightSlots then 8 else 7

/-- The two orders that 93_implementation_defined.md U3 names for the stored CRC bytes. -/
inductive CrcStoreOrder where
  /-- `blk[12] = c[31:24]` … `blk[15] = c[7:0]` (20_memory.md R77). -/
  | formula
  /-- `blk[12] = c[7:0]` … `blk[15] = c[31:24]`: the reading the spec sets aside (90_conflicts.md C2). -/
  | reversed
  deriving DecidableEq, Repr

namespace Config

/-- `FRAME_LEN` (R9). -/
def frameLen : Nat := 64

/-- `CRC_WINDOW`: only the first 12 bytes of a block enter the CRC (R9). -/
def crcWindow : Nat := 12

/-- `CRC_INIT` (R10, D6). -/
def crcInit : Word32 := 0x00000000#32

/-- `CRC_XOROUT` (R10, D6). -/
def crcXorOut : Word32 := 0x00000000#32

/-- `CRC_POLY_REFLECTED`, the reflected IEEE 802.3 polynomial (R10, R141). -/
def crcPolyReflected : Word32 := 0xEDB88320#32

/-- `CRC_STORE_ORDER`: the spec's choice is the formula (R77, R147, 90_conflicts.md C2). -/
def crcStoreOrder : CrcStoreOrder := .formula

/-- The parameters of the implementation (R11, R12). FREE VALUE: nothing constrains it. -/
opaque params : Params

/-- The bytes of `blk` after the n-th free draw: unspecified at reset (10_state.md R58). FREE VALUE. -/
opaque freeBlock : Nat → Block

/-- The bytes of `frm` after the n-th free draw: unspecified at reset (10_state.md R58). FREE VALUE. -/
opaque freeFrame : Nat → Frame

/-- The random byte of the n-th free draw, under no law (93_implementation_defined.md U11). FREE VALUE. -/
opaque freeByte : Nat → Byte

/-- The bytes that a newly allocated figure image holds before the Builder sets any, at the n-th free draw: not in the
source (43_client_sequences.md R219). FREE VALUE. -/
opaque freeImage : Nat → Image

/-- Whether a slot's `uid` follows a write to its block (0, 0) at the n-th free draw:
not in source (91_not_in_source.md N12). FREE VALUE. -/
opaque uidFollowsWrite : Nat → Bool

end Config

end Sys2Proof
end

