-- ==== Sys2Proof/Syntax.lean ====
section
/-!
DEFINITION. The instructions: one constructor per row of the opcode table (30_encoding.md R101, R118, R119).
Eight rows are requests to the block (format REQ); seven are command codes that the environment's Command
Processor decodes (format CMD). A request keeps its 7-bit field `n`, which six operations ignore (R103);
a command keeps the fields its client sequence reads (R104, R115).
-/

namespace Sys2Proof

/-- The four request ports (10_state.md R54). -/
inductive PortId where
  /-- Port C, compute. -/
  | c
  /-- Port W, writer. -/
  | w
  /-- Port E, event. -/
  | e
  /-- Port R, reader. -/
  | r
  deriving DecidableEq, Repr

/-- The eight operations of the block (R101). -/
inductive Op where
  | crc32f | crcsign | csum | csign | pushr | pushn | wake | poll
  deriving DecidableEq, Repr

/-- The instructions of the opcode table. -/
inductive Instr where
  /-- CRC32F: CRC-32 of the first 12 bytes of a block (R143). -/
  | crc32f (n : BitVec 7) (blk : Block)
  /-- CRCSIGN: store the CRC into the last four bytes of a block (R147). -/
  | crcsign (n : BitVec 7) (blk : Block)
  /-- CSUM: sum of the first `n` bytes of a frame, modulo 256 (R162). -/
  | csum (n : BitVec 7) (frm : Frame)
  /-- CSIGN: store the sum of the first `n` bytes at byte `n` (R168). -/
  | csign (n : BitVec 7) (frm : Frame)
  /-- PUSHR: append a frame to the reply queue (R181). -/
  | pushr (n : BitVec 7) (frm : Frame)
  /-- PUSHN: append a frame to the notification queue (R184). -/
  | pushn (n : BitVec 7) (frm : Frame)
  /-- WAKE: set `awake` (R186). -/
  | wake (n : BitVec 7)
  /-- POLL: ask for the next frame (R189). -/
  | poll (n : BitVec 7)
  /-- CMD.WAKE, code 0xB0 (R212). -/
  | cmdWake (seq : Byte)
  /-- CMD.ACK_C0, code 0xC0 (R213). -/
  | cmdAckC0 (seq : Byte)
  /-- CMD.ACK_C3, code 0xC3 (R213). -/
  | cmdAckC3 (seq : Byte)
  /-- CMD.LIST, code 0xD0 (R214). -/
  | cmdList (seq : Byte)
  /-- CMD.READ, code 0xD2 (R215). -/
  | cmdRead (seq : Byte) (uid : Uid) (sector block : Byte)
  /-- CMD.WRITE, code 0xD3 (R216). -/
  | cmdWrite (seq : Byte) (uid : Uid) (sector block : Byte) (payload : Block)
  /-- CMD.UNKNOWN, every other code (R217). -/
  | cmdUnknown (code : Byte)
  deriving DecidableEq, Repr

/-- The six command codes that have a row of their own (R119). -/
def commandCodes : List Byte := [0xB0, 0xC0, 0xC3, 0xD0, 0xD2, 0xD3]

end Sys2Proof
end

