-- ==== Sys2Proof/Machine/State.lean ====
section
/-!
DEFINITION. The state of the machine: the three units of the block (10_state.md R30 to R53), its four ports
(R54, R55), the environment around it as far as the spec describes it (R56, 43_client_sequences.md), and the
model's own fields, which say which agent moves next. Everything is plain data. Memory: the block has no address
space (20_memory.md R70, R87); its storage spaces are the buffers and queues below.
-/

namespace Sys2Proof.Machine

/-! ## The block -/

/-- Unit U1, the CRC-32 generator. -/
structure U1 where
  /-- `crc`, the accumulator (R31). -/
  crc : Word32
  /-- `cidx`, index of the next descriptor byte, 0 to 12 (R32). -/
  cidx : BitVec 4
  /-- `blk[0..15]`, the descriptor operand buffer (R33). -/
  blk : Block
  /-- `c_busy` of U1 (R52). -/
  busy : Bool
  deriving DecidableEq, Repr

/-- Unit U2, the additive checksum accumulator. -/
structure U2 where
  /-- `sum`, the accumulator (R34). -/
  sum : Byte
  /-- `sidx`, index of the next frame byte, 0 to 64 (R35). -/
  sidx : BitVec 7
  /-- `slen`, the number of bytes to add, 0 to 64 (R35). -/
  slen : BitVec 7
  /-- `frm[0..63]`, the frame operand buffer (R36). -/
  frm : Frame
  /-- `c_busy` of U2 (R52). -/
  busy : Bool
  deriving DecidableEq, Repr

/-- `pstate` (R50). -/
inductive PState where
  /-- `P_IDLE`: no POLL is pending. -/
  | idle
  /-- `P_PENDING`: a POLL was accepted and has not delivered. -/
  | pending
  deriving DecidableEq, Repr

/-- Unit U3, the frame multiplexer. -/
structure U3 where
  /-- `awake`, the one mode bit (R39, 60_exceptions.md R264). -/
  awake : Bool
  /-- `rq`, the reply queue, oldest first (R46). -/
  rq : List Frame
  /-- `nq`, the notification queue, oldest first (R47). -/
  nq : List Frame
  /-- `pstate` (R50). -/
  pstate : PState
  /-- `bcnt`, ticks of the backoff interval, 0 to `BACKOFF_TICKS` (R51, 60_exceptions.md R268). -/
  bcnt : Nat
  deriving DecidableEq, Repr

/-! ## Responses and ports -/

/-- The reason codes of a refused request (60_exceptions.md R251). -/
inductive RefCode where
  /-- `REF_BADOP`: a reserved operation code (R252). -/
  | badOp
  /-- `REF_LEN`: `n` out of range for CSUM or CSIGN (R253). -/
  | len
  /-- `REF_PORT`: a valid operation on a port that does not list it (R254). -/
  | port
  deriving DecidableEq, Repr

/-- The result of a completed request; its size is fixed by the operation (30_encoding.md R101). -/
inductive Result where
  /-- PUSHR, PUSHN, WAKE. -/
  | none
  /-- CRC32F: 32 bits. -/
  | crc (v : Word32)
  /-- CSUM: 8 bits. -/
  | sum (v : Byte)
  /-- CRCSIGN: 16 bytes. -/
  | block (b : Block)
  /-- CSIGN, POLL: 64 bytes. -/
  | frame (f : Frame)
  deriving DecidableEq, Repr

/-- A response: status `OK` with a result, or `ERR` with a reason code (R55, 60_exceptions.md R251). -/
inductive Response where
  | ok (r : Result)
  | err (c : RefCode)
  deriving DecidableEq, Repr

/-- One port: what its agents still want to present, the request that is presented and holds, and the responses
given so far. `J` is what the port's agents do. -/
structure Port (J : Type) where
  /-- The rest of the agents' finite script (70_reset_and_hazards.md R303), oldest first. -/
  script : List J
  /-- The request presented but not accepted (R55, 60_exceptions.md R255). -/
  held : Option Instr
  /-- The responses of this port, oldest first. -/
  out : List Response
  deriving DecidableEq, Repr

/-- What an agent presents on port C: a request, or the figure creation of the Builder (R219). -/
inductive ComputeJob where
  /-- A request as bytes (see `decodeBytes`). -/
  | request (bytes : List Byte)
  /-- `CreateFigure(identity_type, identity_id)`, each operand a byte string of any width, with the handle of the new
  backing file and whether the backing store can be created (R219). -/
  | newFigure (identityType identityId : List Byte) (handle : Nat) (storeOk : Bool)
  deriving DecidableEq, Repr

/-- What the Writer does: present a request on port W, or process one Command Frame (R210, R211, R220). -/
inductive WriterJob where
  /-- A request as bytes. -/
  | request (bytes : List Byte)
  /-- The host's `Write`: one Command Frame of 64 bytes. -/
  | hostWrite (cmd : Frame)
  deriving DecidableEq, Repr

/-- What the Event agent does: present a request on port E, `LoadFigure` or `RemoveFigure` (R218, R231). -/
inductive EventJob where
  /-- A request as bytes. -/
  | request (bytes : List Byte)
  /-- `LoadFigure(blob, handle)`. -/
  | attach (blob : Image) (handle : Nat)
  /-- `RemoveFigure(slot_index)`. -/
  | detach (slot : Nat)
  deriving DecidableEq, Repr

/-- What the Reader does: present a request on port R, or the host's `Read(buffer, length)` (R220). -/
inductive ReaderJob where
  /-- A request as bytes. -/
  | request (bytes : List Byte)
  /-- The host's `Read` of `length` bytes. -/
  | hostRead (length : Nat)
  deriving DecidableEq, Repr

/-! ## The environment -/

/-- A Figure Slot (R56). -/
structure Slot where
  /-- `present`. -/
  present : Bool
  /-- `uid`, meaningful only when `present`; all zero when cleared. -/
  uid : Uid
  /-- `data`, the 320-byte blob. -/
  data : Image
  /-- `backing_store`: the owned handle. -/
  handle : Option Nat
  deriving DecidableEq, Repr

/-- Who is inside the environment's exclusive region across steps (70_reset_and_hazards.md R295 to R297). -/
inductive Region where
  | free
  | writer
  | event
  deriving DecidableEq, Repr

/-- What a boundary call returned to the external caller (43_client_sequences.md R218, R219, R231). -/
inductive ClientResult where
  /-- `LoadFigure` took this slot. -/
  | loaded (slot : Nat)
  /-- `LoadFigure` found no free slot. -/
  | full
  /-- `RemoveFigure`: whether the slot was occupied. -/
  | removed (wasPresent : Bool)
  /-- `CreateFigure`: whether the backing file was written. -/
  | created (ok : Bool)
  deriving DecidableEq, Repr

/-- The environment's own state: the Figure Registry, the backing files, the exclusive region. -/
structure Env where
  /-- The slot table; the slot with index 7 exists only when `NUM_SLOTS` is 8 (R56). -/
  slots : Vector Slot 8
  /-- The contents of the backing files by handle, handles strictly rising (R227, R231). -/
  files : List (Nat × Image)
  /-- The exclusive region (R53, 60_exceptions.md R266 duty 3). -/
  region : Region
  /-- What the boundary calls returned, oldest first. -/
  results : List ClientResult
  deriving DecidableEq, Repr

/-- The host-side calls that issue no operation of the block (43_client_sequences.md R220). -/
inductive HostCall where
  | openCall
  | closeCall
  | isOpened
  | getDescriptor
  | setProtocol
  | setReport
  | setIdle
  deriving DecidableEq, Repr

/-- Who moves next. The order of simultaneous requests on different ports is open (20_memory.md R91,
60_exceptions.md R260), so the schedule is data that nothing constrains. -/
inductive Turn where
  /-- The agent on port C. -/
  | compute
  /-- The Writer, on port W. -/
  | writer
  /-- The Event agent, on port E. -/
  | event
  /-- The Reader, on port R. -/
  | reader
  /-- U3 makes one arbitration attempt for a pending POLL (42_mux.md R191, R194). -/
  | deliver
  /-- One tick of the backoff counter (42_mux.md R194). -/
  | tick
  /-- A host-side call with no effect on the block. -/
  | hostCall (c : HostCall)
  /-- The reset input `rst` is asserted and released (70_reset_and_hazards.md R280). -/
  | rst
  deriving DecidableEq, Repr

/-- The whole machine. -/
structure State where
  /-- The open parameters (00_scope.md R11, R12). Static: no step changes them. -/
  params : Params
  /-- Unit U1. -/
  u1 : U1
  /-- Unit U2. -/
  u2 : U2
  /-- Unit U3. -/
  u3 : U3
  /-- Port C (R54). -/
  portC : Port ComputeJob
  /-- Port W (R54). -/
  portW : Port WriterJob
  /-- Port E (R54). -/
  portE : Port EventJob
  /-- Port R (R54). -/
  portR : Port ReaderJob
  /-- The environment. -/
  env : Env
  /-- The MODEL's own: which agent moves at each coming step. -/
  schedule : List Turn
  /-- The MODEL's own: how many free values have been drawn. -/
  drawn : Nat
  deriving DecidableEq, Repr

/-- A slot that nothing occupies: absent, uid cleared, no handle (R56, R225). -/
def Slot.empty : Slot :=
  { present := false, uid := Vector.replicate 7 0, data := Vector.replicate 320 0, handle := none }

/-- A port right after reset: nothing presented, nothing answered. -/
def Port.initial (J : Type) : Port J := { script := [], held := none, out := [] }

/-- U1 after reset, `blk` given (R58). -/
def U1.afterReset (blk : Block) : U1 := { crc := 0, cidx := 0, blk := blk, busy := false }

/-- U2 after reset, `frm` given (R58). -/
def U2.afterReset (frm : Frame) : U2 := { sum := 0, sidx := 0, slen := 0, frm := frm, busy := false }

/-- U3 after reset: asleep, both queues empty, no POLL pending (R58). -/
def U3.afterReset : U3 := { awake := false, rq := [], nq := [], pstate := .idle, bcnt := 0 }

/-- The environment at the start: the empty registry (R58, 43_client_sequences.md R225). -/
def Env.initial : Env :=
  { slots := Vector.replicate 8 Slot.empty, files := [], region := .free, results := [] }

/-- The machine right after reset under given parameters (R58). DESIGN CHOICE: `blk` and `frm`, which the spec leaves
unspecified, hold zero bytes. -/
def State.resetWith (p : Params) : State :=
  { params := p
    u1 := U1.afterReset (Vector.replicate 16 0)
    u2 := U2.afterReset (Vector.replicate 64 0)
    u3 := U3.afterReset
    portC := Port.initial ComputeJob
    portW := Port.initial WriterJob
    portE := Port.initial EventJob
    portR := Port.initial ReaderJob
    env := Env.initial
    schedule := []
    drawn := 0 }

/-- The machine right after reset (R58); its parameters are open (R11). -/
def State.reset : State := State.resetWith Config.params

/-- The reasons a step faults: none. The block raises no exception, trap or fault (60_exceptions.md R250), so the type
is empty: nothing raises a fault, and that is exact, neither safe nor unsafe. -/
inductive Fault where
  deriving DecidableEq, Repr

/-- The reasons a step is refused. A request that the block itself refuses is NOT one of them: the spec gives it a
response with a reason code (`RefCode`) and the machine goes on. -/
inductive Refusal where
  /-- An instruction without a meaning, by its mnemonic. Raised by no arm of `exec`. Safe: the run ends. -/
  | notModelled (mnemonic : String)
  /-- Raised when a request is presented whose bytes cannot be expressed on a port: no whole header, a header wider
  than 11 bits, or an operand of another size than its operation fixes (20_memory.md R82). Safe: the run ends. -/
  | inexpressibleRequest
  /-- Raised by the host's `Read` with a length other than 64, which is outside the spec (20_memory.md R82,
  93_implementation_defined.md U13). Safe: the run ends. -/
  | readLength
  /-- Raised by CMD.LIST when the list does not fit a frame, which a model of the environment must refuse
  (43_client_sequences.md R222, 93_implementation_defined.md U10). Safe: the run ends. -/
  | listTagsTooLong
  /-- Raised by an attach whose uid is already present, which a model of the environment refuses
  (91_not_in_source.md N11, 93_implementation_defined.md U14). Safe: the run ends. -/
  | duplicateUid
  /-- Raised by an attach whose handle another slot owns: handles are never shared (43_client_sequences.md R231).
  Safe: the run ends. -/
  | handleInUse
  /-- Raised by a detach whose index is no slot: the spec gives `RemoveFigure` no effect there. Safe: the run ends. -/
  | noSuchSlot
  deriving DecidableEq, Repr

end Sys2Proof.Machine
end

