-- ==== Sys2Proof/Machine/Flags.lean ====
section
/-!
DEFINITION. The derived status predicates (10_state.md R40), the two functions of U3's state (42_mux.md R190) and
the `STATUS` view (10_state.md R43). There are no condition codes: no operation sets a flag but WAKE (R41).
-/

namespace Sys2Proof.Machine

/-- A queue of this depth takes one more frame: the negation of `len(q) = DEPTH` (R40). -/
def hasRoom (d : Depth) (q : List Frame) : Bool :=
  match q with
  | [] => true
  | _ :: rest =>
    match d with
    | .unbounded => true
    | .frames extra => decide (rest.length < extra)

/-- `rq_ne` (R40). -/
def U3.rqNe (u : U3) : Bool := !u.rq.isEmpty

/-- `nq_ne` (R40). -/
def U3.nqNe (u : U3) : Bool := !u.nq.isEmpty

/-- `poll_pending` (R40). -/
def U3.pollPending (u : U3) : Bool := decide (u.pstate = .pending)

/-- `deliverable` (R190). -/
def U3.deliverable (u : U3) : Bool := (u.awake && u.nqNe) || u.rqNe

/-- The queue a delivery takes from. -/
inductive Source where
  /-- `N`, the notification queue. -/
  | notifications
  /-- `R`, the reply queue. -/
  | replies
  deriving DecidableEq, Repr

/-- `select`: notifications first once awake, else replies; `none` when nothing is deliverable (R190). -/
def U3.select (u : U3) : Option Source :=
  if u.awake && u.nqNe then some .notifications
  else if u.rqNe then some .replies
  else none

/-- `rq_full` (R40). -/
def State.rqFull (s : State) : Bool := !hasRoom s.params.rqDepth s.u3.rq

/-- `nq_full` (R40). -/
def State.nqFull (s : State) : Bool := !hasRoom s.params.nqDepth s.u3.nq

/-- The read-only `STATUS` view, bit 7 down to bit 0: reserved (reads 0), `NQ_FULL`, `RQ_FULL`, `POLL_PENDING`,
`DELIVERABLE`, `NQ_NE`, `RQ_NE`, `AWAKE` (R43). -/
def State.status (s : State) : BitVec 8 :=
  0#1 ++ BitVec.ofBool s.nqFull ++ BitVec.ofBool s.rqFull ++ BitVec.ofBool s.u3.pollPending ++
    BitVec.ofBool s.u3.deliverable ++ BitVec.ofBool s.u3.nqNe ++ BitVec.ofBool s.u3.rqNe ++
    BitVec.ofBool s.u3.awake

end Sys2Proof.Machine
end

