-- ==== Sys2Proof/WellFormed.lean ====
section
/-!
DEFINITION. Well-formed instructions. Operand sizes and field widths are in the types (20_memory.md R82); what is
left to check is that CMD.UNKNOWN stands for a code that no other row names (30_encoding.md R119).
-/

namespace Sys2Proof

/-- The code of CMD.UNKNOWN is none of the six known codes (R119, R217). -/
def Instr.wf : Instr → Bool
  | .cmdUnknown code => !commandCodes.contains code
  | .crc32f _ _ => true
  | .crcsign _ _ => true
  | .csum _ _ => true
  | .csign _ _ => true
  | .pushr _ _ => true
  | .pushn _ _ => true
  | .wake _ => true
  | .poll _ => true
  | .cmdWake _ => true
  | .cmdAckC0 _ => true
  | .cmdAckC3 _ => true
  | .cmdList _ => true
  | .cmdRead _ _ _ _ => true
  | .cmdWrite _ _ _ _ _ => true

end Sys2Proof
end

