-- ==== Sys2Proof/Decode.lean ====
section
/-!
DEFINITION. Decoding and encoding, total on any bytes (30_encoding.md R100 to R105, R113 to R120).
A request arrives on a port as an 11-bit header and a data operand; a command arrives as a 64-byte Command
Frame. `decodeBytes` reads either from bytes, `encode` writes them.
-/

namespace Sys2Proof

/-- The first `n` bytes of a list, followed by zero bytes up to `n` (R109). -/
def packBytes (n : Nat) (l : List Byte) : Vector Byte n :=
  ⟨((l ++ List.replicate n 0).take n).toArray, by simp⟩

/-- `len` bytes of a list from index `start` on (R115). -/
def sliceBytes (l : List Byte) (start len : Nat) : Vector Byte len :=
  packBytes len (l.drop start)

/-- What arrives: a request on a port of the block, or a Command Frame the host writes (R118). -/
inductive Wire where
  | request
  | command
  deriving DecidableEq, Repr

/-- Why bytes are no instruction. -/
inductive DecodeError where
  /-- Fewer than two bytes: no request header. -/
  | shortHeader
  /-- A bit above bit 10 is set: a header has 11 bits (R100). -/
  | wideHeader
  /-- One of the eight reserved operation codes (R120). -/
  | reservedOp (op : BitVec 4)
  /-- The data operand has not the size its operation fixes (20_memory.md R82). -/
  | operandSize (wanted : Nat)
  /-- A Command Frame has 64 bytes (R104). -/
  | frameSize
  deriving DecidableEq, Repr

namespace Op

/-- The eight operations in table order (R101). -/
def all : List Op := [.crc32f, .crcsign, .csum, .csign, .pushr, .pushn, .wake, .poll]

/-- The operation code `hdr[10:7]` (R101). -/
def code : Op → BitVec 4
  | .crc32f => 0b0000#4
  | .crcsign => 0b0001#4
  | .csum => 0b0100#4
  | .csign => 0b0101#4
  | .pushr => 0b1000#4
  | .pushn => 0b1001#4
  | .wake => 0b1010#4
  | .poll => 0b1011#4

/-- The match value over the 11-bit header (R102). -/
def matchBits : Op → BitVec 11
  | .crc32f => 0x000#11
  | .crcsign => 0x080#11
  | .csum => 0x200#11
  | .csign => 0x280#11
  | .pushr => 0x400#11
  | .pushn => 0x480#11
  | .wake => 0x500#11
  | .poll => 0x580#11

/-- The port that lists the operation (10_state.md R54). -/
def port : Op → PortId
  | .crc32f => .c
  | .crcsign => .c
  | .csum => .c
  | .csign => .c
  | .pushr => .w
  | .pushn => .e
  | .wake => .w
  | .poll => .r

/-- Size of the data operand in bytes (R101, 20_memory.md R82). -/
def operandLen : Op → Nat
  | .crc32f => 16
  | .crcsign => 16
  | .csum => 64
  | .csign => 64
  | .pushr => 64
  | .pushn => 64
  | .wake => 0
  | .poll => 0

end Op

/-- The mask that selects an operation: the field `n` takes no part (R102). -/
def opMask : BitVec 11 := 0x780#11

/-- The field `op` of a header, `hdr[10:7]` (R100). -/
def headerOp (hdr : BitVec 11) : BitVec 4 := hdr.extractLsb' 7 4

/-- The field `n` of a header, `hdr[6:0]`, unsigned (R100, R113). -/
def headerN (hdr : BitVec 11) : BitVec 7 := hdr.extractLsb' 0 7

/-- The header of an operation with length operand `n` (R100). -/
def makeHeader (o : Op) (n : BitVec 7) : BitVec 11 := o.code ++ n

/-- The operation a header selects by mask and match; `none` is a reserved code (R102, R120). -/
def selectOp (hdr : BitVec 11) : Option Op :=
  Op.all.find? (fun o => hdr &&& opMask == o.matchBits)

/-- The request of an operation: header field `n` and the whole data operand (R113, R114). -/
def buildRequest (o : Op) (n : BitVec 7) (data : List Byte) : Instr :=
  match o with
  | .crc32f => .crc32f n (packBytes 16 data)
  | .crcsign => .crcsign n (packBytes 16 data)
  | .csum => .csum n (packBytes 64 data)
  | .csign => .csign n (packBytes 64 data)
  | .pushr => .pushr n (packBytes 64 data)
  | .pushn => .pushn n (packBytes 64 data)
  | .wake => .wake n
  | .poll => .poll n

/-- A request from its header and data operand. The operation code is looked at first (60_exceptions.md R254). -/
def decodeRequest (hdr : BitVec 11) (data : List Byte) : Except DecodeError Instr :=
  match selectOp hdr with
  | none => .error (.reservedOp (headerOp hdr))
  | some o =>
    if data.length = o.operandLen then .ok (buildRequest o (headerN hdr) data)
    else .error (.operandSize o.operandLen)

/-- A Command Frame: the code is byte 2, matched on all 8 bits; the operands stand at fixed offsets
(R104, R115, R119). Bytes 0, 1 and 29 to 63 are ignored. -/
def decodeCommand (cmd : List Byte) : Instr :=
  let code := cmd.getD 2 0
  let seq := cmd.getD 3 0
  let uid := sliceBytes cmd 4 7
  let sector := cmd.getD 11 0
  let block := cmd.getD 12 0
  if code = 0xB0 then .cmdWake seq
  else if code = 0xC0 then .cmdAckC0 seq
  else if code = 0xC3 then .cmdAckC3 seq
  else if code = 0xD0 then .cmdList seq
  else if code = 0xD2 then .cmdRead seq uid sector block
  else if code = 0xD3 then .cmdWrite seq uid sector block (sliceBytes cmd 13 16)
  else .cmdUnknown code

/-- The instruction that bytes stand for. A request's header is its first two bytes, the least
significant byte first; its five top bits are zero. -/
def decodeBytes : Wire → List Byte → Except DecodeError Instr
  | .request, lo :: hi :: data =>
    if hi.toNat < 8 then decodeRequest (BitVec.truncate 11 (hi ++ lo)) data else .error .wideHeader
  | .request, [_] => .error .shortHeader
  | .request, [] => .error .shortHeader
  | .command, cmd => if cmd.length = 64 then .ok (decodeCommand cmd) else .error .frameSize

/-! ## The encoder -/

/-- Where an instruction's bytes arrive. -/
def Instr.wire : Instr → Wire
  | .crc32f _ _ => .request
  | .crcsign _ _ => .request
  | .csum _ _ => .request
  | .csign _ _ => .request
  | .pushr _ _ => .request
  | .pushn _ _ => .request
  | .wake _ => .request
  | .poll _ => .request
  | .cmdWake _ => .command
  | .cmdAckC0 _ => .command
  | .cmdAckC3 _ => .command
  | .cmdList _ => .command
  | .cmdRead _ _ _ _ => .command
  | .cmdWrite _ _ _ _ _ => .command
  | .cmdUnknown _ => .command

/-- The port an instruction is presented on; the Writer runs the commands (10_state.md R54, 43_client_sequences.md R210). -/
def Instr.port : Instr → PortId
  | .crc32f _ _ => Op.port .crc32f
  | .crcsign _ _ => Op.port .crcsign
  | .csum _ _ => Op.port .csum
  | .csign _ _ => Op.port .csign
  | .pushr _ _ => Op.port .pushr
  | .pushn _ _ => Op.port .pushn
  | .wake _ => Op.port .wake
  | .poll _ => Op.port .poll
  | .cmdWake _ => .w
  | .cmdAckC0 _ => .w
  | .cmdAckC3 _ => .w
  | .cmdList _ => .w
  | .cmdRead _ _ _ _ => .w
  | .cmdWrite _ _ _ _ _ => .w
  | .cmdUnknown _ => .w

/-- The bytes of a request: the header, least significant byte first, then the data operand. -/
def encodeRequest (o : Op) (n : BitVec 7) (data : List Byte) : List Byte :=
  let hdr := makeHeader o n
  hdr.extractLsb' 0 8 :: BitVec.zeroExtend 8 (hdr.extractLsb' 8 3) :: data

/-- A Command Frame: the code at byte 2, then the given fields from byte 3 on, zero elsewhere (R104). -/
def encodeCommand (code : Byte) (fields : List Byte) : List Byte :=
  (packBytes 64 ([0, 0, code] ++ fields)).toList

/-- The bytes of an instruction, written from the same tables. -/
def encode : Instr → List Byte
  | .crc32f n b => encodeRequest .crc32f n b.toList
  | .crcsign n b => encodeRequest .crcsign n b.toList
  | .csum n f => encodeRequest .csum n f.toList
  | .csign n f => encodeRequest .csign n f.toList
  | .pushr n f => encodeRequest .pushr n f.toList
  | .pushn n f => encodeRequest .pushn n f.toList
  | .wake n => encodeRequest .wake n []
  | .poll n => encodeRequest .poll n []
  | .cmdWake seq => encodeCommand 0xB0 [seq]
  | .cmdAckC0 seq => encodeCommand 0xC0 [seq]
  | .cmdAckC3 seq => encodeCommand 0xC3 [seq]
  | .cmdList seq => encodeCommand 0xD0 [seq]
  | .cmdRead seq uid sector block => encodeCommand 0xD2 ([seq] ++ uid.toList ++ [sector, block])
  | .cmdWrite seq uid sector block payload =>
    encodeCommand 0xD3 ([seq] ++ uid.toList ++ [sector, block] ++ payload.toList)
  | .cmdUnknown code => encodeCommand code []

/-! ## The opcode table's own words -/

/-- The bytes that a table word stands for: a word of at most 8 bits is the code byte of a Command Frame,
a longer one is a request header; every operand byte is zero (R118). -/
def tableBytes (nbits w : Nat) : Wire × List Byte :=
  if nbits ≤ 8 then (.command, encodeCommand (BitVec.ofNat 8 w) [])
  else
    let lo := BitVec.ofNat 8 w
    let hi := BitVec.ofNat 8 (w / 256)
    let len := ((selectOp (BitVec.ofNat 11 w)).map Op.operandLen).getD 0
    (.request, lo :: hi :: List.replicate len 0)

/-- The instruction the decoder reads from a table word whose operand bytes are zero. -/
def decodeTableWord (nbits w : Nat) : Option Instr :=
  (decodeBytes (tableBytes nbits w).1 (tableBytes nbits w).2).toOption

end Sys2Proof
end

