-- ==== Sys2Proof/Machine/Operands.lean ====
section
/-!
DEFINITION. Operand assembly on the environment's side: the frames the clients build (30_encoding.md R105 to R109,
R116, R117; 43_client_sequences.md R212 to R221) and the block of a figure image (R75, R115, R229, R230). Every
frame starts as 64 zero bytes (R109), so it is written as its assigned bytes packed into a frame.
-/

namespace Sys2Proof.Machine

/-- Overwrite the bytes of a list from index `start` on by `new` (R230). -/
def spliceBytes (l : List Byte) (start : Nat) (new : List Byte) : List Byte :=
  l.take start ++ new ++ l.drop (start + new.length)

/-- The common response header: marker, `LEN`, echoed code, echoed sequence number (R105, R221). -/
def responseHead (p : Params) (len : Nat) (code seq : Byte) : List Byte :=
  [p.respMarker, BitVec.ofNat 8 len, code, seq]

/-- The checksum offset of a Response Frame with length indicator `len` (R105, R106, R117). -/
def checksumOffset (len : Nat) : Nat := len + 2

/-- The Acknowledge-shaped response before signing, `LEN = 2` (R108, R213, R216). -/
def ackFrame (p : Params) (code seq : Byte) : Frame :=
  packBytes 64 (responseHead p 2 code seq)

/-- The Wake response before signing (R108, R212). -/
def wakeFrame (p : Params) (seq : Byte) : Frame :=
  packBytes 64 (responseHead p p.wakeLen 0xB0 seq ++ p.wakeBytes)

/-- One List Tags entry: `0x09`, then the uid (R108, R214). -/
def listEntry (uid : Uid) : List Byte := 0x09 :: uid.toList

/-- `LEN` of the List Tags response with `count` present slots (R108, R116, R214). -/
def listLen (p : Params) (count : Nat) : Nat := p.listBaseLen + 8 * count

/-- The List Tags response fits a frame: its checksum offset is at most 63 (R214, R222). With a `LIST_BASE_LEN` above 61
not even the empty list fits. -/
def listFits (p : Params) (uids : List Uid) : Bool :=
  decide (checksumOffset (listLen p uids.length) ≤ 63)

/-- The List Tags response before signing: entries in slot-index order from offset `LIST_BASE_LEN + 2` on (R116, R214). -/
def listFrame (p : Params) (seq : Byte) (uids : List Uid) : Frame :=
  packBytes 64
    (responseHead p (listLen p uids.length) 0xD0 seq ++ List.replicate (p.listBaseLen - 2) 0 ++
      uids.flatMap listEntry)

/-- The Read Block response before signing: `LEN = 0x13`, byte 4 zero, the 16 bytes at offset 5 on a hit and zero bytes
on a miss (R108, R215). -/
def readFrame (p : Params) (seq : Byte) (hit : Option Block) : Frame :=
  packBytes 64 (responseHead p 0x13 0xD2 seq ++ [0] ++ (hit.map Vector.toList).getD [])

/-- The reply to an unknown command: 64 zero bytes, no marker, no checksum (R122, R217). -/
def unknownFrame : Frame := Vector.replicate 64 0

/-- The Notification Frame before signing: marker, subtype, presence flag, uid (R107, R218). -/
def notificationFrame (p : Params) (added : Bool) (uid : Uid) : Frame :=
  packBytes 64 ([p.notifMarker, p.subtype0, p.subtype1, if added then 0x01 else 0x00] ++ uid.toList)

/-- The checksum offset of a Notification Frame (R107, R117). -/
def notificationOffset : Nat := 11

/-- `sector < 5 and block < 4` (R115, R229). -/
def blockInRange (sector block : Byte) : Bool := decide (sector.toNat < 5) && decide (block.toNat < 4)

/-- Blob offset `sector*64 + block*16` (R75, R115). -/
def blockOffset (sector block : Byte) : Nat := sector.toNat * 64 + block.toNat * 16

/-- The uid of a figure, `blob[0..7)` (R110, R226). -/
def uidOf (blob : Image) : Uid := sliceBytes blob.toList 0 7

/-- The descriptor of a figure image, the 16 bytes at offset 16 (R75, R110). -/
def descriptorOf (img : Image) : Block := sliceBytes img.toList 16 16

/-- One byte of a new figure's descriptor, from the random byte and the operands of `CreateFigure` (R110, R219). A byte
that an operand does not have is zero (log entry 29). -/
def descriptorValue (random : Byte) (identityType identityId : List Byte) : DescriptorByte → Byte
  | .random => random
  | .structural v => v
  | .separator v => v
  | .identityType k => identityType.getD k 0
  | .identityId k => identityId.getD k 0

/-- The descriptor the Builder builds: bytes 0 to 11 by the layout (R110). Bytes 12 to 15 are zero until CRCSIGN
overwrites them; no rule reads them (40_crc32.md R144, R147). -/
def builtDescriptor (b : Builder) (random : Byte) (identityType identityId : List Byte) : Block :=
  packBytes 16 (b.layout.toList.map (descriptorValue random identityType identityId))

/-- The image the Builder fills (R219 step 1, R110): the structural bytes at offsets 0, 6, 7, 8 and 10 and the byte at 9,
the five serial bytes at 1 to 5, the descriptor at 16; every other byte is what the fresh image held. -/
def builtImage (b : Builder) (serial : Vector Byte 5) (random : Byte) (fresh : Image)
    (identityType identityId : List Byte) : Image :=
  packBytes 320
    ([b.byte0] ++ serial.toList ++ [b.byte6, b.byte7, b.byte8, b.byte9, b.byte10] ++ (fresh.toList.drop 11).take 5 ++
      (builtDescriptor b random identityType identityId).toList ++ fresh.toList.drop 32)

/-- The image with its 16 bytes from `start` on replaced (R219, R230). -/
def putBlock (img : Image) (start : Nat) (b : Block) : Image :=
  packBytes 320 (spliceBytes img.toList start b.toList)

end Sys2Proof.Machine
end

