-- ==== Sys2Proof/Machine/Ops.lean ====
section
/-!
DEFINITION. The named operations that the meanings share: the ports (complete, hold, refuse), the arithmetic of U1 and U2,
the steps of U3 (42_mux.md R199), and reset. The block takes no exception (60_exceptions.md R250, R262); what stands in
its place is the refusal of a request, one shared operation, `State.refuse`.
-/

namespace Sys2Proof.Machine

/-! ## Ports -/

/-- A response is given; whatever is presented on the port stays presented. -/
def Port.emit {J : Type} (p : Port J) (r : Response) : Port J := { p with out := p.out ++ [r] }

/-- The port's request ends with a response and the port is free for the next one (10_state.md R55). -/
def Port.complete {J : Type} (p : Port J) (r : Response) : Port J :=
  { p with held := none, out := p.out ++ [r] }

/-- The request is not accepted and stays presented (60_exceptions.md R255). -/
def Port.hold {J : Type} (p : Port J) (i : Instr) : Port J := { p with held := some i }

/-- `complete(result)` or `refuse` as seen on a port (00_scope.md R17). -/
def State.complete (s : State) (p : PortId) (r : Response) : State :=
  match p with
  | .c => { s with portC := s.portC.complete r }
  | .w => { s with portW := s.portW.complete r }
  | .e => { s with portE := s.portE.complete r }
  | .r => { s with portR := s.portR.complete r }

/-- `hold` (00_scope.md R17): the request stays presented; no other state changes. -/
def State.hold (s : State) (p : PortId) (i : Instr) : State :=
  match p with
  | .c => { s with portC := s.portC.hold i }
  | .w => { s with portW := s.portW.hold i }
  | .e => { s with portE := s.portE.hold i }
  | .r => { s with portR := s.portR.hold i }

/-- `refuse <Reason>`: status `ERR` with a reason code, no result, no state of the block changes, the port is free
(60_exceptions.md R251, R262, R263). -/
def State.refuse (s : State) (p : PortId) (c : RefCode) : State := s.complete p (.err c)

/-- The reason code of a refusal as the response carries it; 0 is status `OK` (60_exceptions.md R251). -/
def Response.reasonCode : Response → BitVec 2
  | .ok _ => 0
  | .err .badOp => 1
  | .err .len => 2
  | .err .port => 3

/-! ## Unit U1 -/

/-- The byte step `crc_step(c, b)` (40_crc32.md R142). -/
def crcStep (c : Word32) (b : Byte) : Word32 := (c >>> 8) ^^^ crcEntry (c.extractLsb' 0 8 ^^^ b)

/-- The accumulator after the twelve window bytes, in ascending index (R143, 20_memory.md R76). -/
def crcAccumulate (b : Block) : Word32 := (b.toList.take Config.crcWindow).foldl crcStep Config.crcInit

/-- `FigureCRC32(block16)`: the result of CRC32F (R143). -/
def figureCrc (b : Block) : Word32 := crcAccumulate b ^^^ Config.crcXorOut

/-- Byte `k` of a 32-bit value, `v[8k+7:8k]` (00_scope.md R13). -/
def byteOf (v : Word32) (k : Nat) : Byte := v.extractLsb' (8 * k) 8

/-- The four byte stores of CRCSIGN, `k` in 3, 2, 1, 0 (R147); the other order is that of 93_implementation_defined.md U3. -/
def storeCrc (order : CrcStoreOrder) (b : Block) (c : Word32) : Block :=
  [3, 2, 1, 0].foldl
    (fun d k =>
      d.setIfInBounds (15 - k)
        (match order with
          | .formula => byteOf c k
          | .reversed => byteOf c (3 - k)))
    b

/-- The signed block, the result of CRCSIGN (R147). -/
def signBlock (b : Block) : Block := storeCrc Config.crcStoreOrder b (figureCrc b)

/-- The body of CRC32F as one atomic function of the operand (R143, R150). -/
def U1.crc32f (u : U1) (b : Block) : U1 :=
  { u with crc := crcAccumulate b, cidx := BitVec.ofNat 4 Config.crcWindow, blk := b }

/-- The body of CRCSIGN: that of CRC32F, then the four byte stores (R147). -/
def U1.crcsign (u : U1) (b : Block) : U1 :=
  { u.crc32f b with blk := signBlock b }

/-- The start of a CRC operation: load the block, preset the accumulator, clear the index (R143). -/
def U1.start (u : U1) (b : Block) : U1 := { u with crc := Config.crcInit, cidx := 0, blk := b }

/-- One byte of a byte-serial implementation (R143, R150): the loop body while `cidx < 12`. -/
def U1.tick (u : U1) : U1 :=
  if u.cidx.toNat < Config.crcWindow then
    { u with crc := crcStep u.crc (u.blk[u.cidx.toNat]'u.cidx.isLt), cidx := u.cidx + 1 }
  else u

/-! ## Unit U2 -/

/-- `AdditiveChecksum(frame, n)`: the sum of the first `n` bytes, each addition modulo 256 (41_checksum.md R162, R165). -/
def additiveChecksum (f : Frame) (n : Nat) : Byte := (f.toList.take n).foldl (· + ·) 0

/-- The frame with its checksum stored at byte `n`, the result of CSIGN (R168). -/
def signFrame (f : Frame) (n : Nat) : Frame := f.setIfInBounds n (additiveChecksum f n)

/-- The body of CSUM as one atomic function of the operands (R162, R171). -/
def U2.csum (u : U2) (n : BitVec 7) (f : Frame) : U2 :=
  { u with sum := additiveChecksum f n.toNat, sidx := n, slen := n, frm := f }

/-- The body of CSIGN: that of CSUM, then one byte store (R168). -/
def U2.csign (u : U2) (n : BitVec 7) (f : Frame) : U2 :=
  { u.csum n f with frm := signFrame f n.toNat }

/-- The start of a checksum operation: load the frame and the length, clear sum and index (R162). -/
def U2.start (u : U2) (n : BitVec 7) (f : Frame) : U2 := { u with sum := 0, sidx := 0, slen := n, frm := f }

/-- One addition of a byte-serial implementation (R162, R171): the loop body while `sidx < slen`. -/
def U2.tick (u : U2) : U2 :=
  if u.sidx.toNat < u.slen.toNat then
    { u with sum := u.sum + u.frm.toList.getD u.sidx.toNat 0, sidx := u.sidx + 1 }
  else u

/-! ## Unit U3 -/

/-- Step `pushR(F)` of U3 (42_mux.md R181, R199). -/
def U3.pushR (u : U3) (f : Frame) : U3 := { u with rq := u.rq ++ [f] }

/-- Step `pushN(F)` of U3 (R184, R199). -/
def U3.pushN (u : U3) (f : Frame) : U3 := { u with nq := u.nq ++ [f] }

/-- Step `wake` of U3 (R186, R199). -/
def U3.wakeUp (u : U3) : U3 := { u with awake := true }

/-- Step `pollAccept` of U3 (R189, R199). -/
def U3.pollAccept (u : U3) : U3 := { u with pstate := .pending, bcnt := 0 }

/-- Step `pollDeliver` of U3 on a pending POLL: the frame and the state after, or `none` when nothing is deliverable
(R191, R199). -/
def U3.pollDeliver (u : U3) : Option (Frame × U3) :=
  match u.awake, u.nq, u.rq with
  | true, f :: rest, _ => some (f, { u with nq := rest, pstate := .idle })
  | _, _, f :: rest => some (f, { u with rq := rest, pstate := .idle })
  | _, _, [] => none

/-- PUSHR of a frame: it holds while the reply queue is full (R181, R182). -/
def State.pushReply (s : State) (n : BitVec 7) (f : Frame) : State :=
  if hasRoom s.params.rqDepth s.u3.rq then
    ({ s with u3 := s.u3.pushR f } : State).complete .w (.ok .none)
  else s.hold .w (.pushr n f)

/-- PUSHN of a frame: it holds while the notification queue is full, whatever `awake` is (R182, R184, R185). -/
def State.pushNotification (s : State) (n : BitVec 7) (f : Frame) : State :=
  if hasRoom s.params.nqDepth s.u3.nq then
    ({ s with u3 := s.u3.pushN f } : State).complete .e (.ok .none)
  else s.hold .e (.pushn n f)

/-! ## The clients' use of port C -/

/-- A client can issue CSIGN at once: U2 is not busy and nothing is presented on port C (10_state.md R52, R55). -/
def State.u2Free (s : State) : Bool := !s.u2.busy && s.portC.held.isNone

/-- A client issues CSIGN on port C for a frame at offset `n` (30_encoding.md R117, R126). -/
def State.clientSign (s : State) (f : Frame) (n : Nat) : State :=
  { s with
    u2 := s.u2.csign (BitVec.ofNat 7 n) f
    portC := s.portC.emit (.ok (.frame (signFrame f n))) }

/-! ## Reset -/

/-- The reset input: the block's state is that of 10_state.md R58 with unspecified bytes in `blk` and `frm`; requests in
flight are dropped without a response (70_reset_and_hazards.md R283); the environment is not touched (R284), but that a
Writer or Event agent whose request was dropped leaves its exclusive region. -/
def State.assertReset (s : State) : State :=
  { s with
    u1 := U1.afterReset (Config.freeBlock s.drawn)
    u2 := U2.afterReset (Config.freeFrame s.drawn)
    u3 := U3.afterReset
    portC := { s.portC with held := none }
    portW := { s.portW with held := none }
    portE := { s.portE with held := none }
    portR := { s.portR with held := none }
    env := { s.env with region := .free }
    drawn := s.drawn + 1 }

end Sys2Proof.Machine
end

