-- ==== Sys2Proof/Machine/Checksum.lean ====
section
/-!
DEFINITION. Unit U2: the meanings of CSUM and CSIGN (41_checksum.md R161, R162, R168). The range check comes before any
state of U2 is touched (R161); while U2 is busy the request holds (10_state.md R52).
-/

namespace Sys2Proof.Machine

/-- CSUM (R162): `n ≤ 64`, otherwise `REF_LEN` (R161). -/
def execCsum (n : BitVec 7) (frm : Frame) (s : State) : Host.Outcome State Fault Refusal :=
  if 64 < n.toNat then .next (s.refuse .c .len)
  else if s.u2.busy then .next (s.hold .c (.csum n frm))
  else
    .next (({ s with u2 := s.u2.csum n frm } : State).complete .c
      (.ok (.sum (additiveChecksum frm n.toNat))))

/-- CSIGN (R168): `n ≤ 63`, otherwise `REF_LEN` (R161). -/
def execCsign (n : BitVec 7) (frm : Frame) (s : State) : Host.Outcome State Fault Refusal :=
  if 63 < n.toNat then .next (s.refuse .c .len)
  else if s.u2.busy then .next (s.hold .c (.csign n frm))
  else
    .next (({ s with u2 := s.u2.csign n frm } : State).complete .c
      (.ok (.frame (signFrame frm n.toNat))))

end Sys2Proof.Machine
end

