-- ==== Sys2Proof/Machine/Mux.lean ====
section
/-!
DEFINITION. Unit U3: the meanings of PUSHR, PUSHN, WAKE and POLL (42_mux.md R181, R184, R186, R189). The delivery of a
pending POLL is a step of U3 itself (R191, R199) and stands here as `State.deliver`.
-/

namespace Sys2Proof.Machine

/-- PUSHR (R181): `n` is ignored; holds while the reply queue is full (R182). -/
def execPushr (n : BitVec 7) (frm : Frame) (s : State) : Host.Outcome State Fault Refusal :=
  .next (s.pushReply n frm)

/-- PUSHN (R184): `n` is ignored; accepted in both modes (R185); holds while the notification queue is full (R182). -/
def execPushn (n : BitVec 7) (frm : Frame) (s : State) : Host.Outcome State Fault Refusal :=
  .next (s.pushNotification n frm)

/-- WAKE (R186): `n` is ignored; never holds; idempotent. -/
def execWake (_n : BitVec 7) (s : State) : Host.Outcome State Fault Refusal :=
  .next (({ s with u3 := s.u3.wakeUp } : State).complete .w (.ok .none))

/-- POLL, acceptance (R189): `n` is ignored; a second POLL holds while one is pending (60_exceptions.md R255). The port
stays in flight, without a response, until a delivery. -/
def execPoll (n : BitVec 7) (s : State) : Host.Outcome State Fault Refusal :=
  match s.u3.pstate with
  | .pending => .next (s.hold .r (.poll n))
  | .idle =>
    .next { s with u3 := s.u3.pollAccept, portR := { s.portR with held := none } }

/-- One arbitration attempt of U3 (R191, R194): a pending POLL with something deliverable completes on port R with one
frame; a pending POLL with nothing deliverable starts a new backoff interval; otherwise nothing happens. -/
def State.deliver (s : State) : State :=
  match s.u3.pstate with
  | .idle => s
  | .pending =>
    match s.u3.pollDeliver with
    | some (f, u) => { s with u3 := u, portR := s.portR.emit (.ok (.frame f)) }
    | none => { s with u3 := { s.u3 with bcnt := 0 } }

/-- One tick of the backoff counter: it runs only while a POLL is pending with nothing deliverable, up to
`BACKOFF_TICKS` (R194, 10_state.md R51, 60_exceptions.md R268). -/
def State.backoffTick (s : State) : State :=
  if s.u3.pollPending && !s.u3.deliverable && decide (s.u3.bcnt < s.params.backoffTicks) then
    { s with u3 := { s.u3 with bcnt := s.u3.bcnt + 1 } }
  else s

end Sys2Proof.Machine
end

