-- ==== Sys2Proof/Machine/Registry.lean ====
section
/-!
DEFINITION. The Figure Registry at the boundary (43_client_sequences.md R225 to R231): the slot table, its search and
its block accesses, and the backing files. Environment state: the block never reads or writes it (10_state.md R56).
-/

namespace Sys2Proof.Machine

/-- The slot indices in index order. -/
def slotIndices : List (Fin 8) := [0, 1, 2, 3, 4, 5, 6, 7]

/-- Slot `i` exists: `i < NUM_SLOTS` (R56, 00_scope.md R12). -/
def slotExists (p : Params) (i : Fin 8) : Bool := decide (i.val < 7) || p.eightSlots

/-- A figure is present in slot `i`. -/
def Env.occupied (e : Env) (p : Params) (i : Fin 8) : Bool := e.slots[i].present && slotExists p i

/-- `Allocate`'s scan: the lowest-indexed free slot (R226). -/
def Env.freeSlot (e : Env) (p : Params) : Option (Fin 8) :=
  slotIndices.find? (fun i => !e.slots[i].present && slotExists p i)

/-- `FindByUid`: linear scan over the present slots (R228). -/
def Env.findByUid (e : Env) (p : Params) (uid : Uid) : Option (Fin 8) :=
  slotIndices.find? (fun i => e.occupied p i && decide (e.slots[i].uid = uid))

/-- Some other present slot than `i` holds this uid (10_state.md R56). -/
def Env.uidHeldElsewhere (e : Env) (p : Params) (i : Fin 8) (uid : Uid) : Bool :=
  slotIndices.any (fun j => decide (j ≠ i) && (e.occupied p j && decide (e.slots[j].uid = uid)))

/-- The uids of the present slots in slot-index order (R214). -/
def Env.presentUids (e : Env) (p : Params) : List Uid :=
  (slotIndices.filter (fun i => e.occupied p i)).map (fun i => e.slots[i].uid)

/-- Some present slot owns this handle (R231). -/
def Env.ownsHandle (e : Env) (p : Params) (handle : Nat) : Bool :=
  slotIndices.any (fun i => e.occupied p i && decide (e.slots[i].handle = some handle))

/-- Write the contents of a backing file, handles strictly rising. -/
def putFile (handle : Nat) (img : Image) : List (Nat × Image) → List (Nat × Image)
  | [] => [(handle, img)]
  | (h, i) :: rest =>
    if handle < h then (handle, img) :: (h, i) :: rest
    else if handle = h then (handle, img) :: rest
    else (h, i) :: putFile handle img rest

/-- The contents of a backing file; `none` when there is no such file. -/
def getFile (handle : Nat) (files : List (Nat × Image)) : Option Image :=
  (files.find? (fun c => decide (c.1 = handle))).map Prod.snd

/-- Put a slot into the table. -/
def Env.setSlot (e : Env) (i : Fin 8) (sl : Slot) : Env := { e with slots := e.slots.set i sl }

/-- `Allocate(blob, handle)` at a free slot (R226). -/
def Env.fill (e : Env) (i : Fin 8) (blob : Image) (handle : Nat) : Env :=
  e.setSlot i { present := true, uid := uidOf blob, data := blob, handle := some handle }

/-- `Release(slot_index)` of a present slot: persist the blob to the owned handle, release the handle, clear the uid,
mark absent (R227). -/
def Env.release (e : Env) (i : Fin 8) : Env :=
  let sl := e.slots[i]
  let files := match sl.handle with
    | some h => putFile h sl.data e.files
    | none => e.files
  { e.setSlot i { sl with present := false, uid := Vector.replicate 7 0, handle := none } with files := files }

/-- `ReadBlock(uid, sector, block)`; `none` is `Unavailable` (R229). -/
def Env.readBlock (e : Env) (p : Params) (uid : Uid) (sector block : Byte) : Option Block :=
  match e.findByUid p uid with
  | none => none
  | some i =>
    if blockInRange sector block then
      some (sliceBytes e.slots[i].data.toList (blockOffset sector block) 16)
    else none

/-- The write touches the bytes the uid was derived from: block (0, 0) (R230). -/
def touchesUid (sector block : Byte) : Bool := decide (sector = 0) && decide (block = 0)

/-- `WriteBlock(uid, sector, block, payload16)`: dropped silently on a miss (R230). Whether the slot's `uid` follows a
write to block (0, 0) is not in source (91_not_in_source.md N12): a free value, one draw for each such write. It never
follows to the uid of another present slot, since at most one slot may hold a uid (10_state.md R56; log entry 12). -/
def State.writeBlock (s : State) (uid : Uid) (sector block : Byte) (payload : Block) : State :=
  match s.env.findByUid s.params uid with
  | none => s
  | some i =>
    if blockInRange sector block then
      let sl := s.env.slots[i]
      let data := putBlock sl.data (blockOffset sector block) payload
      let follows := touchesUid sector block && Config.uidFollowsWrite s.drawn &&
        !s.env.uidHeldElsewhere s.params i (uidOf data)
      let uid' := if follows then uidOf data else sl.uid
      { s with
        env := s.env.setSlot i { sl with data := data, uid := uid' }
        drawn := if touchesUid sector block then s.drawn + 1 else s.drawn }
    else s

/-- A boundary call returns a value to the external caller (R231). -/
def State.report (s : State) (r : ClientResult) : State :=
  { s with env := { s.env with results := s.env.results ++ [r] } }

end Sys2Proof.Machine
end

