-- ==== Sys2Proof/Machine/Commands.lean ====
section
/-!
DEFINITION. The Command Processor: the meanings of the seven command rows (43_client_sequences.md R211 to R222). One
command is one step (R211): it issues its operations in the order its client sequence gives and ends with exactly one
PUSHR. While U2 cannot take the CSIGN the whole command holds; while the reply queue is full its PUSHR holds, and the
Writer stays inside the exclusive region (60_exceptions.md R266 duty 3, 70_reset_and_hazards.md R295).
-/

namespace Sys2Proof.Machine

/-- The PUSHR that ends every command (R211). -/
def State.reply (s : State) (f : Frame) : State :=
  let t := s.pushReply 0 f
  if t.portW.held.isSome then { t with env := { t.env with region := .writer } } else t

/-- CSIGN at the frame's checksum offset, then PUSHR of the signed frame (30_encoding.md R117, R126). -/
def State.signAndReply (s : State) (f : Frame) (n : Nat) : State :=
  (s.clientSign f n).reply (signFrame f n)

/-- A client sequence that signs waits until port C and U2 can take its CSIGN (60_exceptions.md R255). -/
def clientSequence (i : Instr) (s : State) (body : Host.Outcome State Fault Refusal) :
    Host.Outcome State Fault Refusal :=
  if s.u2Free then body else .next (s.hold .w i)

/-- The WAKE of a Wake command, issued on port W before its PUSHR (R212, 42_mux.md R188). -/
def State.clientWake (s : State) : State :=
  { s with u3 := s.u3.wakeUp, portW := s.portW.emit (.ok .none) }

/-- CMD.WAKE (R212): WAKE; CSIGN at `WAKE_LEN + 2`; PUSHR. -/
def execCmdWake (seq : Byte) (s : State) : Host.Outcome State Fault Refusal :=
  clientSequence (.cmdWake seq) s
    (.next (s.clientWake.signAndReply (wakeFrame s.params seq) (checksumOffset s.params.wakeLen)))

/-- CMD.ACK with code 0xC0 (R213): CSIGN at 4; PUSHR. -/
def execCmdAckC0 (seq : Byte) (s : State) : Host.Outcome State Fault Refusal :=
  clientSequence (.cmdAckC0 seq) s
    (.next (s.signAndReply (ackFrame s.params 0xC0 seq) (checksumOffset 2)))

/-- CMD.ACK with code 0xC3 (R213): as 0xC0 but for the echoed code. -/
def execCmdAckC3 (seq : Byte) (s : State) : Host.Outcome State Fault Refusal :=
  clientSequence (.cmdAckC3 seq) s
    (.next (s.signAndReply (ackFrame s.params 0xC3 seq) (checksumOffset 2)))

/-- CMD.LIST (R214): CSIGN at `LEN + 2`; PUSHR. A list that does not fit a frame is refused by the environment (R222). -/
def execCmdList (seq : Byte) (s : State) : Host.Outcome State Fault Refusal :=
  let uids := s.env.presentUids s.params
  if listFits s.params uids then
    clientSequence (.cmdList seq) s
      (.next (s.signAndReply (listFrame s.params seq uids) (checksumOffset (listLen s.params uids.length))))
  else .refused .listTagsTooLong

/-- CMD.READ (R215): the block on a hit, zero bytes on a miss; CSIGN at 21; PUSHR. -/
def execCmdRead (seq : Byte) (uid : Uid) (sector block : Byte) (s : State) :
    Host.Outcome State Fault Refusal :=
  clientSequence (.cmdRead seq uid sector block) s
    (.next (s.signAndReply (readFrame s.params seq (s.env.readBlock s.params uid sector block))
      (checksumOffset 0x13)))

/-- CMD.WRITE (R216): the write, then the Acknowledge-shaped response; CSIGN at 4; PUSHR. -/
def execCmdWrite (seq : Byte) (uid : Uid) (sector block : Byte) (payload : Block) (s : State) :
    Host.Outcome State Fault Refusal :=
  clientSequence (.cmdWrite seq uid sector block payload) s
    (.next ((s.writeBlock uid sector block payload).signAndReply (ackFrame s.params 0xD3 seq)
      (checksumOffset 2)))

/-- CMD.UNKNOWN (R217): PUSHR of the all-zero frame; no CSIGN, no echo, no registry access, no WAKE. -/
def execCmdUnknown (_code : Byte) (s : State) : Host.Outcome State Fault Refusal :=
  .next (s.reply unknownFrame)

end Sys2Proof.Machine
end

