-- ==== Sys2Proof/Machine/Crc.lean ====
section
/-!
DEFINITION. Unit U1: the meanings of CRC32F and CRCSIGN (40_crc32.md R143, R147). Neither writes a flag or can be
refused; while U1 is busy the request holds (10_state.md R52).
-/

namespace Sys2Proof.Machine

/-- CRC32F (R143): `n` is ignored (R103). -/
def execCrc32f (_n : BitVec 7) (blk : Block) (s : State) : Host.Outcome State Fault Refusal :=
  if s.u1.busy then .next (s.hold .c (.crc32f _n blk))
  else .next (({ s with u1 := s.u1.crc32f blk } : State).complete .c (.ok (.crc (figureCrc blk))))

/-- CRCSIGN (R147): `n` is ignored (R103). -/
def execCrcsign (_n : BitVec 7) (blk : Block) (s : State) : Host.Outcome State Fault Refusal :=
  if s.u1.busy then .next (s.hold .c (.crcsign _n blk))
  else .next (({ s with u1 := s.u1.crcsign blk } : State).complete .c (.ok (.block (signBlock blk))))

end Sys2Proof.Machine
end

