-- ==== Sys2Proof/Machine/Dispatch.lean ====
section
/-!
DEFINITION. One arm per constructor of Instr: one direct call of the instruction's meaning.
-/

namespace Sys2Proof.Machine

def exec (i : Instr) (s : State) : Host.Outcome State Fault Refusal :=
  match i with
  -- unit U1 (40_crc32.md)
  | .crc32f n blk => Sys2Proof.Machine.execCrc32f n blk s
  | .crcsign n blk => Sys2Proof.Machine.execCrcsign n blk s
  -- unit U2 (41_checksum.md)
  | .csum n frm => Sys2Proof.Machine.execCsum n frm s
  | .csign n frm => Sys2Proof.Machine.execCsign n frm s
  -- unit U3 (42_mux.md)
  | .pushr n frm => Sys2Proof.Machine.execPushr n frm s
  | .pushn n frm => Sys2Proof.Machine.execPushn n frm s
  | .wake n => Sys2Proof.Machine.execWake n s
  | .poll n => Sys2Proof.Machine.execPoll n s
  -- the Command Processor (43_client_sequences.md)
  | .cmdWake seq => Sys2Proof.Machine.execCmdWake seq s
  | .cmdAckC0 seq => Sys2Proof.Machine.execCmdAckC0 seq s
  | .cmdAckC3 seq => Sys2Proof.Machine.execCmdAckC3 seq s
  | .cmdList seq => Sys2Proof.Machine.execCmdList seq s
  | .cmdRead seq uid sector block => Sys2Proof.Machine.execCmdRead seq uid sector block s
  | .cmdWrite seq uid sector block payload => Sys2Proof.Machine.execCmdWrite seq uid sector block payload s
  | .cmdUnknown code => Sys2Proof.Machine.execCmdUnknown code s

end Sys2Proof.Machine
end

