-- ==== Sys2Proof/Machine/Events.lean ====
section
/-!
DEFINITION. The environment's events: attach and detach of a figure (43_client_sequences.md R218, R231) and the creation
of a figure (R219). They are no rows of the opcode table: they are inputs that the step reads from the agents' scripts.
-/

namespace Sys2Proof.Machine

/-- A notification is due: awake, or `ENV_NOTIFY_WHEN_ASLEEP` (R218). -/
def State.notifies (s : State) : Bool := s.u3.awake || s.params.notifyWhenAsleep

/-- The registry change and its notification can be one step: no notification is due, or port C and U2 can take its CSIGN
(R218, 10_state.md R52, R55). -/
def State.eventCanStart (s : State) : Bool := !s.notifies || s.u2Free

/-- Signing and pushing a notification: CSIGN at 11, then PUSHN (R218); not while asleep unless `ENV_NOTIFY_WHEN_ASLEEP`.
While its PUSHN holds the Event agent may stay inside the exclusive region (70_reset_and_hazards.md R295). -/
def State.notify (s : State) (added : Bool) (uid : Uid) : State :=
  if s.notifies then
    let f := notificationFrame s.params added uid
    let t := (s.clientSign f notificationOffset).pushNotification 0 (signFrame f notificationOffset)
    if t.portE.held.isSome && s.params.eventKeepsRegion then { t with env := { t.env with region := .event } }
    else t
  else s

/-- `LoadFigure(blob, handle)` (R218, R226): the lowest free slot takes the figure, then the notification; a full registry
answers `Full` and nothing else happens. `wait` is the state in which the event is still to come. The call returns its value with
the registry change: the spec does not say whether it waits for a PUSHN that holds (log entry 28). -/
def attachFigure (blob : Image) (handle : Nat) (wait s : State) : Host.Outcome State Fault Refusal :=
  match s.env.freeSlot s.params with
  | none => .next (s.report .full)
  | some i =>
    if (s.env.findByUid s.params (uidOf blob)).isSome then .refused .duplicateUid
    else if s.env.ownsHandle s.params handle then .refused .handleInUse
    else if s.eventCanStart then
      .next ((({ s with env := s.env.fill i blob handle } : State).report (.loaded i.val)).notify true (uidOf blob))
    else .next wait

/-- `RemoveFigure(slot_index)` (R218, R227): a present figure is persisted and released, then the notification; an empty
slot answers false and nothing else happens. The call returns its value with the registry change: the spec does not say
whether it waits for a PUSHN that holds (log entry 28). -/
def detachFigure (slot : Nat) (wait s : State) : Host.Outcome State Fault Refusal :=
  if h : slot < 8 then
    if slotExists s.params ⟨slot, h⟩ then
      if s.env.slots[slot].present then
        if s.eventCanStart then
          .next ((({ s with env := s.env.release ⟨slot, h⟩ } : State).report (.removed true)).notify false
            s.env.slots[slot].uid)
        else .next wait
      else .next (s.report (.removed false))
    else .refused .noSuchSlot
  else .refused .noSuchSlot

/-- The number of free draws of one figure creation: six random bytes (93_implementation_defined.md U11) and the fresh
image. -/
def creationDraws : Nat := 7

/-- The image the Builder fills for one figure creation, its random bytes one draw each (R219 step 1, U11). -/
def State.newImage (s : State) (identityType identityId : List Byte) : Image :=
  builtImage s.params.builder (Vector.ofFn fun k : Fin 5 => Config.freeByte (s.drawn + k.val))
    (Config.freeByte (s.drawn + 5)) (Config.freeImage (s.drawn + 6)) identityType identityId

/-- `CreateFigure(identity_type, identity_id)` (R219): the Builder fills a fresh image, CRCSIGN of its descriptor runs on
port C, the signed descriptor goes into the image, and the image is written to a new backing file.
It fails when the store cannot be created, or the handle already names a file or is owned by a slot (R231). -/
def createFigure (identityType identityId : List Byte) (handle : Nat) (storeOk : Bool) (wait s : State) :
    Host.Outcome State Fault Refusal :=
  if s.u1.busy then .next wait
  else
    let img := s.newImage identityType identityId
    let d := signBlock (descriptorOf img)
    let t : State :=
      { s with
        u1 := s.u1.crcsign (descriptorOf img)
        portC := s.portC.emit (.ok (.block d))
        drawn := s.drawn + creationDraws }
    if storeOk && (getFile handle s.env.files).isNone && !s.env.ownsHandle s.params handle then
      .next (({ t with env := { t.env with files := putFile handle (putBlock img 16 d) t.env.files } } : State).report
        (.created true))
    else .next (t.report (.created false))

end Sys2Proof.Machine
end

