-- ==== Sys2Proof/Machine/Turns.lean ====
section
/-!
DEFINITION. One step: the schedule says who moves; an agent presents what its script holds next, and the block accepts,
refuses or holds it (10_state.md R55, 60_exceptions.md R250 to R255). A hold consumes the turn and nothing else. When the
schedule is empty the block moves by itself: it takes what is enabled (`State.idleTurn`), so that no delivery and no
push that stays enabled waits for ever (42_mux.md R194, R199). Fetching an instruction is reading the bytes at the head
of a script.
-/

namespace Sys2Proof.Machine

/-- Apply a function to the state of a `next` outcome. -/
def mapNext (f : State → State) : Host.Outcome State Fault Refusal → Host.Outcome State Fault Refusal
  | .next s => .next (f s)
  | .fault r => .fault r
  | .refused r => .refused r

/-- The Writer leaves the exclusive region once its PUSHR is accepted. -/
def State.writerLeaves (s : State) : State :=
  if s.env.region = .writer ∧ s.portW.held = none then { s with env := { s.env with region := .free } } else s

/-- The Event agent leaves the exclusive region once its PUSHN is accepted. -/
def State.eventLeaves (s : State) : State :=
  if s.env.region = .event ∧ s.portE.held = none then { s with env := { s.env with region := .free } } else s

/-- A request presented on a port: reserved code, then port, then the operation's own checks (60_exceptions.md R254, R261). -/
def serveRequest (p : PortId) (bytes : List Byte) (s : State) : Host.Outcome State Fault Refusal :=
  match decodeBytes .request bytes with
  | .error (.reservedOp _) => .next (s.refuse p .badOp)
  | .error _ => .refused .inexpressibleRequest
  | .ok i => if i.port = p then exec i s else .next (s.refuse p .port)

/-- Port C's turn: a holding request first, else the next job. -/
def computeTurn (s : State) : Host.Outcome State Fault Refusal :=
  match s.portC.held with
  | some i => exec i s
  | none =>
    match s.portC.script with
    | [] => .next s
    | .request bytes :: rest => serveRequest .c bytes { s with portC := { s.portC with script := rest } }
    | .newFigure identityType identityId handle storeOk :: rest =>
      createFigure identityType identityId handle storeOk s
        { s with portC := { s.portC with script := rest } }

/-- A command that has not started yet finds somebody inside the exclusive region (60_exceptions.md R266 duty 3). -/
def State.commandWaits (s : State) (i : Instr) : Bool := decide (i.wire = .command) && decide (s.env.region ≠ .free)

/-- Port W's turn. A command starts only while nobody is inside the exclusive region (60_exceptions.md R266 duty 3). -/
def writerTurn (s : State) : Host.Outcome State Fault Refusal :=
  match s.portW.held with
  | some i => if s.commandWaits i then .next s else mapNext State.writerLeaves (exec i s)
  | none =>
    match s.portW.script with
    | [] => .next s
    | .request bytes :: rest => serveRequest .w bytes { s with portW := { s.portW with script := rest } }
    | .hostWrite cmd :: rest =>
      if s.env.region = .free then
        exec (decodeCommand cmd.toList) { s with portW := { s.portW with script := rest } }
      else .next s

/-- Port E's turn. An attach or detach starts only while nobody is inside the exclusive region. -/
def eventTurn (s : State) : Host.Outcome State Fault Refusal :=
  match s.portE.held with
  | some i => mapNext State.eventLeaves (exec i s)
  | none =>
    match s.portE.script with
    | [] => .next s
    | .request bytes :: rest => serveRequest .e bytes { s with portE := { s.portE with script := rest } }
    | .attach blob handle :: rest =>
      if s.env.region = .free then
        attachFigure blob handle s { s with portE := { s.portE with script := rest } }
      else .next s
    | .detach slot :: rest =>
      if s.env.region = .free then
        detachFigure slot s { s with portE := { s.portE with script := rest } }
      else .next s

/-- Port R's turn. While a POLL is pending the port has a request in flight and accepts no other (10_state.md R55). -/
def readerTurn (s : State) : Host.Outcome State Fault Refusal :=
  match s.u3.pstate with
  | .pending => .next s
  | .idle =>
    match s.portR.held with
    | some i => exec i s
    | none =>
      match s.portR.script with
      | [] => .next s
      | .request bytes :: rest => serveRequest .r bytes { s with portR := { s.portR with script := rest } }
      | .hostRead length :: rest =>
        if length = Config.frameLen then exec (.poll 0) { s with portR := { s.portR with script := rest } }
        else .refused .readLength

/-- The move of the agent whose turn it is. -/
def performTurn (t : Turn) (s : State) : Host.Outcome State Fault Refusal :=
  match t with
  | .compute => computeTurn s
  | .writer => writerTurn s
  | .event => eventTurn s
  | .reader => readerTurn s
  | .deliver => .next s.deliver
  | .tick => .next s.backoffTick
  | .hostCall _ => .next s
  | .rst => .next s.assertReset

/-- The block would not hold this request: for PUSHR, PUSHN, WAKE and POLL the column "enabled when" of 42_mux.md R199,
for the others the holds of 60_exceptions.md R255. A list that does not fit is refused at once (log entry 21). -/
def State.accepts (s : State) (i : Instr) : Bool :=
  match i with
  | .crc32f _ _ => !s.u1.busy
  | .crcsign _ _ => !s.u1.busy
  | .csum n _ => decide (64 < n.toNat) || !s.u2.busy
  | .csign n _ => decide (63 < n.toNat) || !s.u2.busy
  | .pushr _ _ => hasRoom s.params.rqDepth s.u3.rq
  | .pushn _ _ => hasRoom s.params.nqDepth s.u3.nq
  | .wake _ => true
  | .poll _ => !s.u3.pollPending
  | .cmdWake _ => s.u2Free
  | .cmdAckC0 _ => s.u2Free
  | .cmdAckC3 _ => s.u2Free
  | .cmdList _ => !listFits s.params (s.env.presentUids s.params) || s.u2Free
  | .cmdRead _ _ _ _ => s.u2Free
  | .cmdWrite _ _ _ _ _ => s.u2Free
  | .cmdUnknown _ => true

/-- A request that holds on port `p` would be accepted now. -/
def State.ready (s : State) (p : PortId) (held : Option Instr) : Bool :=
  held.any (fun i => decide (i.port = p) && s.accepts i && !s.commandWaits i)

/-- What the block does by itself when the schedule is empty: an enabled delivery, else a holding request that would be
accepted now, else one arbitration attempt. The spec fixes no order among them (60_exceptions.md R260; log entry 6). -/
def State.idleTurn (s : State) : Turn :=
  if s.u3.pollPending && s.u3.deliverable then .deliver
  else if s.ready .e s.portE.held then .event
  else if s.ready .w s.portW.held then .writer
  else if s.ready .c s.portC.held then .compute
  else if s.ready .r s.portR.held then .reader
  else .deliver

/-- One step of the machine. -/
def runTurn (s : State) : Host.Outcome State Fault Refusal :=
  match s.schedule with
  | [] => performTurn s.idleTurn s
  | t :: rest => performTurn t { s with schedule := rest }

/-- Make a table word the next thing that happens: its bytes stand at the head of the script of the port that lists the
operation, that port is free, and it is that port's turn (a command also needs the exclusive region free). -/
def State.placeWord (s : State) (nbits w : Nat) : State :=
  let bytes := (tableBytes nbits w).2
  match (tableBytes nbits w).1 with
  | .command =>
    { s with
      portW := { s.portW with script := .hostWrite (packBytes 64 bytes) :: s.portW.script, held := none }
      env := { s.env with region := .free }
      schedule := .writer :: s.schedule }
  | .request =>
    match ((selectOp (BitVec.ofNat 11 w)).map Op.port).getD .c with
    | .c =>
      { s with
        portC := { s.portC with script := .request bytes :: s.portC.script, held := none }
        schedule := .compute :: s.schedule }
    | .w =>
      { s with
        portW := { s.portW with script := .request bytes :: s.portW.script, held := none }
        schedule := .writer :: s.schedule }
    | .e =>
      { s with
        portE := { s.portE with script := .request bytes :: s.portE.script, held := none }
        schedule := .event :: s.schedule }
    | .r =>
      { s with
        u3 := { s.u3 with pstate := .idle }
        portR := { s.portR with script := .request bytes :: s.portR.script, held := none }
        schedule := .reader :: s.schedule }

end Sys2Proof.Machine
end

