-- ==== Sys2Proof/Machine/Step.lean ====
section
/-!
DEFINITION. The step of the machine and the placing of a table word where the step fetches next. Both only call what
Machine/Turns.lean defines.
-/

namespace Sys2Proof.Machine

/-- One step (see `runTurn`). -/
def step (s : State) : Host.Outcome State Fault Refusal := runTurn s

/-- The state in which the very next step runs the given table word (see `State.placeWord`). -/
def State.withFetchWord (s : State) (nbits w : Nat) : State := s.placeWord nbits w

end Sys2Proof.Machine
end

