-- ==== Sys2Proof/Safety.lean ====
section
/-!
DEFINITION. The terms that claims about the machine use: the spec's own arithmetic written independently of the units'
code, the views of a port, what a step may do to the queues, the invariant of every step, and the end of a run
(70_reset_and_hazards.md R303). There is no fault, so a safe run is one in which no step is refused.
-/

namespace Sys2Proof.Machine

/-! ## The spec's arithmetic -/

/-- One round of the generation rule of the table (40_crc32.md R141). -/
def tableRound (c : Word32) : Word32 :=
  if c.getLsbD 0 then (c >>> 1) ^^^ Config.crcPolyReflected else c >>> 1

/-- Entry `i` of the table by the generation rule: eight rounds on `zext_32(i)` (R141). -/
def tableRule (i : Byte) : Word32 := Nat.iterate tableRound 8 (i.zeroExtend 32)

/-- The byte step with the generated table (R141, R142). -/
def ruleStep (c : Word32) (b : Byte) : Word32 := (c >>> 8) ^^^ tableRule (c.extractLsb' 0 8 ^^^ b)

/-- CRC over a byte string from a start value, by the rules R141 and R142 alone. -/
def ruleCrc (start : Word32) (bytes : List Byte) : Word32 := bytes.foldl ruleStep start

/-- The usual CRC-32: initial value and final exclusive-or `0xFFFFFFFF`, same table (R149). -/
def textbookCrc (bytes : List Byte) : Word32 := ruleCrc 0xFFFFFFFF#32 bytes ^^^ 0xFFFFFFFF#32

/-- The integer sum of a byte string (41_checksum.md R166). -/
def byteSum (bytes : List Byte) : Nat := (bytes.map BitVec.toNat).sum

/-- The 64 bytes of a signed frame whose used bytes are given: the used bytes, their sum modulo 256, then zero bytes
(30_encoding.md R105, R107, R109). -/
def signedBytes (used : List Byte) : List Byte :=
  used ++ [BitVec.ofNat 8 (byteSum used)] ++ List.replicate (63 - used.length) 0

/-- Four bytes read most significant first, as R148 reads `D[12]` to `D[15]`. -/
def beWord (a b c d : Byte) : Word32 :=
  (a.zeroExtend 32 <<< 24) ||| (b.zeroExtend 32 <<< 16) ||| (c.zeroExtend 32 <<< 8) ||| d.zeroExtend 32

/-- Exclusive-or of two blocks, byte by byte (40_crc32.md R145). -/
def xorBlock (a b : Block) : Block := Vector.zipWith (· ^^^ ·) a b

/-- The slot indices below `NUM_SLOTS` that hold a figure, in index order (10_state.md R56). -/
def State.presentSlots (s : State) : List (Fin 8) :=
  (List.finRange 8).filter (fun i => s.env.slots[i].present && decide (i.val < s.params.numSlots))

/-! ## Views of the ports -/

/-- The responses of a port. -/
def State.outOf (s : State) : PortId → List Response
  | .c => s.portC.out
  | .w => s.portW.out
  | .e => s.portE.out
  | .r => s.portR.out

/-- The request that a port holds. -/
def State.heldOn (s : State) : PortId → Option Instr
  | .c => s.portC.held
  | .w => s.portW.held
  | .e => s.portE.held
  | .r => s.portR.held

/-- The frames among a list of responses. -/
def framesOf (out : List Response) : List Frame :=
  out.filterMap fun
    | .ok (.frame f) => some f
    | _ => none

/-- The frames delivered to the Reader, in order. -/
def State.delivered (s : State) : List Frame := framesOf s.portR.out

/-- The next move of the schedule asserts `rst`. -/
def State.resetNext (s : State) : Bool := decide (s.schedule.head? = some .rst)

/-! ## What a client sequence leaves -/

/-- From `s` to `t` a client signed a frame with the given used bytes on port C and the signed frame was appended to the
reply queue (30_encoding.md R105, R117; 43_client_sequences.md R211). -/
def SignedReply (s t : State) (used : List Byte) : Prop :=
  ∃ g : Frame, g.toList = signedBytes used ∧
    t.u2 = { sum := BitVec.ofNat 8 (byteSum used), sidx := BitVec.ofNat 7 used.length,
             slen := BitVec.ofNat 7 used.length, frm := g, busy := s.u2.busy } ∧
    t.portC = { s.portC with out := s.portC.out ++ [.ok (.frame g)] } ∧
    t.u3.rq = s.u3.rq ++ [g]

/-- From `s` to `t` a client signed a notification with the given used bytes on port C and the signed frame was appended
to the notification queue (30_encoding.md R107; 43_client_sequences.md R218). -/
def SignedNotification (s t : State) (used : List Byte) : Prop :=
  ∃ g : Frame, g.toList = signedBytes used ∧
    t.u2 = { sum := BitVec.ofNat 8 (byteSum used), sidx := BitVec.ofNat 7 used.length,
             slen := BitVec.ofNat 7 used.length, frm := g, busy := s.u2.busy } ∧
    t.portC = { s.portC with out := s.portC.out ++ [.ok (.frame g)] } ∧
    t.u3 = { s.u3 with nq := s.u3.nq ++ [g] }

/-- As `SignedNotification`, but the notification queue is full: the signed frame's PUSHN holds on port E
(42_mux.md R182). -/
def HeldNotification (s t : State) (used : List Byte) : Prop :=
  ∃ g : Frame, g.toList = signedBytes used ∧
    t.u2 = { sum := BitVec.ofNat 8 (byteSum used), sidx := BitVec.ofNat 7 used.length,
             slen := BitVec.ofNat 7 used.length, frm := g, busy := s.u2.busy } ∧
    t.portC = { s.portC with out := s.portC.out ++ [.ok (.frame g)] } ∧
    t.u3 = s.u3 ∧
    t.portE.held = some (.pushn 0 g)

/-! ## What the agents present -/

/-- It is port `p`'s turn, the port is free and these bytes are next on it; `s'` is the state with the turn and the script
entry consumed. On port R no POLL is pending (10_state.md R54, R55). -/
def TurnPresents (p : PortId) (bytes : List Byte) (s s' : State) : Prop :=
  match p with
  | .c => ∃ ts rest, s.schedule = .compute :: ts ∧ s.portC.held = none ∧ s.portC.script = .request bytes :: rest ∧
      s' = { s with schedule := ts, portC := { s.portC with script := rest } }
  | .w => ∃ ts rest, s.schedule = .writer :: ts ∧ s.portW.held = none ∧ s.portW.script = .request bytes :: rest ∧
      s' = { s with schedule := ts, portW := { s.portW with script := rest } }
  | .e => ∃ ts rest, s.schedule = .event :: ts ∧ s.portE.held = none ∧ s.portE.script = .request bytes :: rest ∧
      s' = { s with schedule := ts, portE := { s.portE with script := rest } }
  | .r => ∃ ts rest, s.schedule = .reader :: ts ∧ s.portR.held = none ∧ s.portR.script = .request bytes :: rest ∧
      s.u3.pstate = .idle ∧ s' = { s with schedule := ts, portR := { s.portR with script := rest } }

/-- These bytes are the request at the head of some port's script. -/
def State.requestNext (s : State) (bytes : List Byte) : Prop :=
  s.portC.script.head? = some (.request bytes) ∨ s.portW.script.head? = some (.request bytes) ∨
    s.portE.script.head? = some (.request bytes) ∨ s.portR.script.head? = some (.request bytes)

/-- The instruction is what some agent presents: a holding request, the next request of a script, or the next Command
Frame (10_state.md R55, 43_client_sequences.md R220). -/
def State.presents (s : State) (i : Instr) : Prop :=
  (∃ p, s.heldOn p = some i) ∨ (∃ bytes, s.requestNext bytes ∧ decodeBytes .request bytes = .ok i) ∨
    (∃ cmd, s.portW.script.head? = some (.hostWrite cmd) ∧ decodeCommand cmd.toList = i)

/-- The frame is the operand of a presented PUSHR, or of the PUSHR that ends a presented command (43_client_sequences.md
R211). -/
def State.presentsReply (s : State) (f : Frame) : Prop :=
  (∃ n, s.presents (.pushr n f)) ∨ (∃ i : Instr, i.wire = .command ∧ s.presents i)

/-- The frame is the operand of a presented PUSHN, or of the PUSHN of the next attach or detach (R218). -/
def State.presentsNotification (s : State) (f : Frame) : Prop :=
  (∃ n, s.presents (.pushn n f)) ∨ (∃ blob handle, s.portE.script.head? = some (.attach blob handle)) ∨
    (∃ slot, s.portE.script.head? = some (.detach slot))

/-- The number of `OK` responses of a port. -/
def State.okCount (s : State) (p : PortId) : Nat :=
  (s.outOf p).countP fun
    | .ok _ => true
    | .err _ => false

/-! ## What one step may do to the queues -/

/-- The moves of U3 on its two queues (42_mux.md R199). -/
inductive Move where
  /-- None. -/
  | quiet
  /-- `pushR(F)`. -/
  | pushR (f : Frame)
  /-- `pushN(F)`. -/
  | pushN (f : Frame)
  /-- `pollDeliver` from `rq`. -/
  | popR (f : Frame)
  /-- `pollDeliver` from `nq`. -/
  | popN (f : Frame)
  deriving DecidableEq, Repr

/-- The step from `s` to `t` makes this move: what it does to the two queues and the delivered frames, and the `OK`
responses of ports W and E that go with it (42_mux.md R181, R184, R186, R191, R199). -/
inductive QueueMove (s t : State) : Move → Prop where
  /-- Nothing happens to the queues, and no push is answered: an `OK` of port W is that of a WAKE. -/
  | quiet (hr : t.u3.rq = s.u3.rq) (hn : t.u3.nq = s.u3.nq) (hd : t.delivered = s.delivered)
      (he : t.okCount .e = s.okCount .e)
      (hw : t.okCount .w = s.okCount .w ∨
        (t.okCount .w = s.okCount .w + 1 ∧ t.u3.awake = true ∧
          ((∃ n, s.presents (.wake n)) ∨ (∃ seq, s.presents (.cmdWake seq))))) : QueueMove s t .quiet
  /-- A presented PUSHR is accepted and answered, and its operand is appended to the reply queue. -/
  | pushR (f : Frame) (hr : t.u3.rq = s.u3.rq ++ [f]) (hn : t.u3.nq = s.u3.nq) (hd : t.delivered = s.delivered)
      (he : t.okCount .e = s.okCount .e) (hw : s.okCount .w < t.okCount .w) (hh : t.portW.held = none)
      (hp : s.presentsReply f) : QueueMove s t (.pushR f)
  /-- A presented PUSHN is accepted and answered, and its operand is appended to the notification queue. -/
  | pushN (f : Frame) (hr : t.u3.rq = s.u3.rq) (hn : t.u3.nq = s.u3.nq ++ [f]) (hd : t.delivered = s.delivered)
      (he : t.okCount .e = s.okCount .e + 1) (hw : t.okCount .w = s.okCount .w) (hh : t.portE.held = none)
      (hp : s.presentsNotification f) : QueueMove s t (.pushN f)
  /-- The oldest reply is delivered, with no notification eligible. -/
  | popR (f : Frame) (hr : s.u3.rq = f :: t.u3.rq) (hn : t.u3.nq = s.u3.nq) (hd : t.delivered = s.delivered ++ [f])
      (he : t.okCount .e = s.okCount .e) (hw : t.okCount .w = s.okCount .w)
      (hno : s.u3.awake = false ∨ s.u3.nq = []) : QueueMove s t (.popR f)
  /-- The oldest notification is delivered, while awake. -/
  | popN (f : Frame) (hr : t.u3.rq = s.u3.rq) (hn : s.u3.nq = f :: t.u3.nq) (hd : t.delivered = s.delivered ++ [f])
      (he : t.okCount .e = s.okCount .e) (hw : t.okCount .w = s.okCount .w)
      (haw : s.u3.awake = true) : QueueMove s t (.popN f)

/-- The operands of the PUSHRs among some moves, in order. -/
def pushedReplies (ms : List Move) : List Frame := ms.filterMap fun
  | .pushR f => some f
  | .quiet | .pushN _ | .popR _ | .popN _ => none

/-- The operands of the PUSHNs among some moves, in order. -/
def pushedNotifications (ms : List Move) : List Frame := ms.filterMap fun
  | .pushN f => some f
  | .quiet | .pushR _ | .popR _ | .popN _ => none

/-- The replies delivered among some moves, in order. -/
def poppedReplies (ms : List Move) : List Frame := ms.filterMap fun
  | .popR f => some f
  | .quiet | .pushR _ | .pushN _ | .popN _ => none

/-- The notifications delivered among some moves, in order. -/
def poppedNotifications (ms : List Move) : List Frame := ms.filterMap fun
  | .popN f => some f
  | .quiet | .pushR _ | .pushN _ | .popR _ => none

/-- All frames delivered among some moves, in order. -/
def poppedFrames (ms : List Move) : List Frame := ms.filterMap fun
  | .popR f | .popN f => some f
  | .quiet | .pushR _ | .pushN _ => none

/-- A run of `k` steps from `s` to `t` in which the next move is never `rst`. -/
inductive RunsTo : Nat → State → State → Prop where
  | refl (s : State) : RunsTo 0 s s
  | step {k : Nat} {s u t : State} (h : Sys2Proof.Machine.step s = .next u) (hr : s.resetNext = false)
      (hrest : RunsTo k u t) : RunsTo (k + 1) s t

/-- A run from `s` to `t` whose steps make these moves, one each, and in which the next move is never `rst`. -/
inductive MovesTo : List Move → State → State → Prop where
  | refl (s : State) : MovesTo [] s s
  | step {m : Move} {ms : List Move} {s u t : State} (h : Sys2Proof.Machine.step s = .next u)
      (hr : s.resetNext = false) (hm : QueueMove s u m) (hrest : MovesTo ms u t) : MovesTo (m :: ms) s t

/-- An endless run of the machine in which `rst` is never asserted (42_mux.md R199: reset is not a step of the system). -/
def EndlessRun (r : Nat → State) : Prop :=
  ∀ j, Sys2Proof.Machine.step (r j) = .next (r (j + 1)) ∧ (r j).resetNext = false

/-! ## The invariant -/

/-- Handles of the backing files strictly rise. -/
def filesRise (files : List (Nat × Image)) : Prop := files.Pairwise (fun a b => a.1 < b.1)

/-- What holds of every state that a step leaves behind, whatever the parameters (10_state.md R32, R35, R46, R47, R49,
R51, R52, R56; 43_client_sequences.md R227, R231). Idle units are the model's (log entry 7), as are the zero bytes of a
cleared uid and the order of the files (log entry 17), the two region clauses (log entry 15), and that a write to block
(0, 0) keeps uids apart (log entry 12). -/
structure State.Inv (s : State) : Prop where
  /-- `len(rq) ≤ RQ_DEPTH` (R49). -/
  rqFits : s.params.rqDepth.fits s.u3.rq.length = true
  /-- `len(nq) ≤ NQ_DEPTH` (R49). -/
  nqFits : s.params.nqDepth.fits s.u3.nq.length = true
  /-- `bcnt` is in 0 to `BACKOFF_TICKS` (R51). -/
  bcntRange : s.u3.bcnt ≤ s.params.backoffTicks
  /-- `cidx` never takes 13 to 15 (R32). -/
  cidxRange : s.u1.cidx.toNat ≤ 12
  /-- `slen` is in 0 to 64 (R35). -/
  slenRange : s.u2.slen.toNat ≤ 64
  /-- Between operations `sidx` stands at `slen` (R35). -/
  sidxDone : s.u2.sidx = s.u2.slen
  /-- No operation of U1 is between acceptance and completion (R52, R150). -/
  u1Idle : s.u1.busy = false
  /-- No operation of U2 is between acceptance and completion (R52, R171). -/
  u2Idle : s.u2.busy = false
  /-- A port holds only a request of its own (R54, R55). -/
  heldOwn : ∀ p i, s.heldOn p = some i → i.port = p
  /-- Only existing slots are occupied (R56). -/
  slotsExist : ∀ i : Fin 8, s.env.slots[i].present = true → i.val < s.params.numSlots
  /-- An absent slot's uid is cleared (R56, R227). -/
  uidCleared : ∀ i : Fin 8, s.env.slots[i].present = false → s.env.slots[i].uid = Vector.replicate 7 0
  /-- At most one slot holds a given uid (R56). -/
  uidsApart : ∀ i j : Fin 8, s.env.slots[i].present = true → s.env.slots[j].present = true →
    s.env.slots[i].uid = s.env.slots[j].uid → i = j
  /-- Exactly the occupied slots own a handle (R56, R227). -/
  handleOwned : ∀ i : Fin 8, s.env.slots[i].handle.isSome = s.env.slots[i].present
  /-- No handle is shared (R231). -/
  handlesApart : ∀ i j : Fin 8, s.env.slots[i].present = true → s.env.slots[j].present = true →
    s.env.slots[i].handle = s.env.slots[j].handle → i = j
  /-- The backing files keep their canonical form. -/
  filesOrdered : filesRise s.env.files
  /-- The Writer stays inside its region only while its PUSHR holds (60_exceptions.md R266, R295). -/
  writerRegion : s.env.region = .writer → s.portW.held.isSome = true
  /-- The Event agent stays inside its region only while its PUSHN holds (R295). -/
  eventRegion : s.env.region = .event → s.portE.held.isSome = true

/-! ## The end of a run -/

/-- A run is over: no request is in flight on any port and every script is exhausted (70_reset_and_hazards.md R303).
Frames may remain in the queues. A pending POLL is never the end of a run. -/
def State.over (s : State) : Bool :=
  decide (s.u3.pstate = .idle) && !s.u1.busy && !s.u2.busy &&
    s.portC.held.isNone && s.portW.held.isNone && s.portE.held.isNone && s.portR.held.isNone &&
    s.portC.script.isEmpty && s.portW.script.isEmpty && s.portE.script.isEmpty && s.portR.script.isEmpty

end Sys2Proof.Machine
end

