-- ==== Sys2Proof/Certificates/Slice0/Obligations.lean ====
section
/-!
DEFINITION. The statements for the provers, from the numbered rules of the spec. OBLIGATIONS.json lists them with the
rules they rest on. A statement that answers `exec … = .next …` with the whole next state written out is that
instruction's completion, result and frame in one.
-/

open Sys2Proof Sys2Proof.Machine

/-! ## Encoding -/

/-- Decoding the bytes of any well-formed instruction gives the instruction back, with every operand at every value
(30_encoding.md R100 to R104, R119). -/
def Obligations.DecodeOfEncodeIsIdentity : Prop :=
  ∀ i : Instr, i.wf = true → decodeBytes i.wire (encode i) = .ok i

/-- A request that decodes is exactly what the encoder writes for it: no two byte strings are one request
(30_encoding.md R100, R113, R114). The byte layout of the header is the model's choice (log entry 2). -/
def Obligations.EncodeOfDecodedRequestIsIdentity : Prop :=
  ∀ (bytes : List Byte) (i : Instr), decodeBytes .request bytes = .ok i → i.wire = .request ∧ encode i = bytes

/-- 30_encoding.md R102: selection by mask `0x780` and match `op << 7`, on all 2048 headers, whatever `n` is. -/
def Obligations.HeaderSelectionByMaskAndMatch : Prop :=
  Op.all.map (fun o : Op => o.code.zeroExtend 11 <<< (7 : Nat)) =
      [0x000#11, 0x080#11, 0x200#11, 0x280#11, 0x400#11, 0x480#11, 0x500#11, 0x580#11] ∧
    Op.all = [.crc32f, .crcsign, .csum, .csign, .pushr, .pushn, .wake, .poll] ∧
    (∀ (hdr : BitVec 11) (o : Op), selectOp hdr = some o ↔ hdr &&& 0x780#11 = o.code.zeroExtend 11 <<< 7) ∧
    (∀ (op : BitVec 4) (n m : BitVec 7), selectOp (op ++ n) = selectOp (op ++ m)) ∧
    (∀ hdr : BitVec 11, selectOp hdr = none ↔
      hdr.extractLsb' 7 4 ∈ [0b0010#4, 0b0011#4, 0b0110#4, 0b0111#4, 0b1100#4, 0b1101#4, 0b1110#4, 0b1111#4])

/-- Words written out from the encodings of 30_encoding.md R100, R101 and R119 decode to their instructions. -/
def Obligations.WrittenOutWordsDecode : Prop :=
  decodeTableWord 16 0b1011_0000000 = some (.poll 0) ∧
  decodeTableWord 16 0b1010_1111111 = some (.wake 127) ∧
  decodeTableWord 16 0b0100_1000000 = some (.csum 64 (Vector.replicate 64 0)) ∧
  decodeTableWord 16 0b0001_0000001 = some (.crcsign 1 (Vector.replicate 16 0)) ∧
  decodeTableWord 16 0b0010_0000000 = none ∧
  decodeTableWord 8 0b10110000 = some (.cmdWake 0) ∧
  decodeTableWord 8 0b11111111 = some (.cmdUnknown 0xFF)

/-- A table word that decodes is run by the very next step after it is placed: the model's own interface (log entry
3). -/
def Obligations.PlacedWordRunsNext : Prop :=
  ∀ (nbits w : Nat) (i : Instr) (s : State), decodeTableWord nbits w = some i →
    ∃ s', step (s.withFetchWord nbits w) = exec i s' ∧ s'.schedule = s.schedule ∧ s'.u1 = s.u1 ∧ s'.u2 = s.u2 ∧
      s'.u3.awake = s.u3.awake ∧ s'.u3.rq = s.u3.rq ∧ s'.u3.nq = s.u3.nq ∧ s'.portC.script = s.portC.script ∧
      s'.portW.script = s.portW.script ∧ s'.portE.script = s.portE.script ∧ s'.portR.script = s.portR.script

/-! ## The step runs the decoded instruction -/

/-- A request at the head of a free port's script that decodes to an instruction of that port is run by that port's
turn, with the turn and the request consumed and nothing else changed around it (10_state.md R54, R55). A request that
holds is presented again at its port's turn (60_exceptions.md R255); after it an agent leaves the exclusive region if
its push was accepted, and a command waits while somebody is inside (log entry 15). On port R nothing is presented
while a POLL is pending (log entry 24). -/
def Obligations.StepRunsDecodedRequest : Prop :=
  (∀ (p : PortId) (bytes : List Byte) (i : Instr) (s s' : State), TurnPresents p bytes s s' →
    decodeBytes .request bytes = .ok i → i.port = p → step s = exec i s') ∧
  (∀ (s : State) (ts : List Turn) (i : Instr),
    (s.schedule = .compute :: ts → s.portC.held = some i → step s = exec i { s with schedule := ts }) ∧
    (s.schedule = .writer :: ts → s.portW.held = some i →
      (i.wire = .request ∨ s.env.region = .free →
        step s = mapNext State.writerLeaves (exec i { s with schedule := ts })) ∧
      (i.wire = .command → s.env.region ≠ .free → step s = .next { s with schedule := ts })) ∧
    (s.schedule = .event :: ts → s.portE.held = some i →
      step s = mapNext State.eventLeaves (exec i { s with schedule := ts })) ∧
    (s.schedule = .reader :: ts → s.portR.held = some i →
      (s.u3.pstate = .idle → step s = exec i { s with schedule := ts }) ∧
      (s.u3.pstate = .pending → step s = .next { s with schedule := ts })))

/-- A Command Frame at the head of the Writer's script, with the port free and nobody inside the exclusive region, is
decoded and run by the Writer's turn (43_client_sequences.md R211, R220); while somebody is inside it does not start
and nothing changes (60_exceptions.md R266 duty 3; the region is the model's field, log entry 15). A host `Read` of 64
bytes is one POLL. -/
def Obligations.StepRunsDecodedCommand : Prop :=
  ∀ (s : State) (ts : List Turn),
    (∀ cmd rest, s.schedule = .writer :: ts → s.portW.held = none → s.portW.script = .hostWrite cmd :: rest →
      (∀ i, s.env.region = .free → decodeBytes .command cmd.toList = .ok i →
        step s = exec i { s with schedule := ts, portW := { s.portW with script := rest } }) ∧
      (s.env.region ≠ .free → step s = .next { s with schedule := ts })) ∧
    (∀ rest, s.schedule = .reader :: ts → s.u3.pstate = .idle → s.portR.held = none →
      s.portR.script = .hostRead 64 :: rest →
      step s = exec (.poll 0) { s with schedule := ts, portR := { s.portR with script := rest } })

/-! ## Unit U1 -/

/-- 40_crc32.md R141: every entry of the table ROM is the one its generation rule gives. -/
def Obligations.CrcTableIsTheGeneratedOne : Prop :=
  ∀ i : Byte, crcEntry i = tableRule i

/-- CRC32F (R143) completes from every state in which U1 is not busy, for every `n`, with the CRC of the first 12
bytes by the rules R141 and R142; nothing but U1 and port C changes. -/
def Obligations.Crc32fCompletes : Prop :=
  ∀ (n : BitVec 7) (b : Block) (s : State), s.u1.busy = false →
    exec (.crc32f n b) s = .next
      { s with
        u1 := { crc := ruleCrc 0 (b.toList.take 12), cidx := 12, blk := b, busy := false }
        portC := { s.portC with
          held := none, out := s.portC.out ++ [.ok (.crc (ruleCrc 0 (b.toList.take 12)))] } }

/-- CRCSIGN (R147) completes from every state in which U1 is not busy, for every `n`: the first 12 bytes stay, bytes
12 to 15 are the CRC most significant byte first; nothing but U1 and port C changes. It assumes `CRC_STORE_ORDER` =
formula, as 93_implementation_defined.md U3 asks a claim to say (log entry 10). -/
def Obligations.CrcsignCompletes : Prop :=
  ∀ (n : BitVec 7) (b : Block) (s : State), s.u1.busy = false →
    ∃ d : Block,
      d.toList = b.toList.take 12 ++
        [(ruleCrc 0 (b.toList.take 12)).extractLsb' 24 8, (ruleCrc 0 (b.toList.take 12)).extractLsb' 16 8,
         (ruleCrc 0 (b.toList.take 12)).extractLsb' 8 8, (ruleCrc 0 (b.toList.take 12)).extractLsb' 0 8] ∧
      exec (.crcsign n b) s = .next
        { s with
          u1 := { crc := ruleCrc 0 (b.toList.take 12), cidx := 12, blk := d, busy := false }
          portC := { s.portC with held := none, out := s.portC.out ++ [.ok (.block d)] } }

/-- 40_crc32.md R144, the window law. -/
def Obligations.CrcWindowLaw : Prop :=
  ∀ (b b' : Block) (n n' : BitVec 7) (s : State), (∀ (k : Nat) (h : k < 12), b[k] = b'[k]) → s.u1.busy = false →
    ∃ t t', exec (.crc32f n b) s = .next t ∧ exec (.crc32f n' b') s = .next t' ∧
      t.portC.out = t'.portC.out ∧ t.u1.crc = t'.u1.crc

/-- 40_crc32.md R145: zero, linearity over exclusive-or, leading zero bytes. -/
def Obligations.CrcIsLinear : Prop :=
  figureCrc (Vector.replicate 16 0) = 0 ∧
  (∀ a b : Block, figureCrc (xorBlock a b) = figureCrc a ^^^ figureCrc b) ∧
  (∀ (b : Block) (j : Nat), j ≤ 12 → (∀ k, (h : k < 16) → k < j → b[k] = 0) →
    (b.toList.take j).foldl crcStep 0 = 0)

/-- 40_crc32.md R149: the textbook CRC-32 of the same twelve bytes is the result exclusive-or `0x7BD5C66F`. -/
def Obligations.CrcDiffersFromTextbookByAConstant : Prop :=
  ∀ b : Block, textbookCrc (b.toList.take 12) = figureCrc b ^^^ 0x7BD5C66F#32

/-- 40_crc32.md R147, R148, 20_memory.md R86: a block is a fixed point of CRCSIGN exactly when its last four bytes
read, most significant first, as its CRC; every result of CRCSIGN is one. Reading bytes 12 to 15 most significant
first assumes `CRC_STORE_ORDER` = formula, as 93_implementation_defined.md U3 asks a claim to say (log entry 10). -/
def Obligations.SignedBlocksAreTheFixedPoints : Prop :=
  (∀ d : Block, signBlock d = d ↔ beWord d[12] d[13] d[14] d[15] = figureCrc d) ∧
  (∀ b : Block, signBlock (signBlock b) = signBlock b)

/-- 40_crc32.md R150, 41_checksum.md R171: a byte-serial implementation ends with the registers of the atomic
operation. -/
def Obligations.ByteSerialUnitsAgreeWithAtomicOnes : Prop :=
  (∀ (u : U1) (b : Block), Nat.iterate U1.tick 12 (u.start b) = u.crc32f b) ∧
  (∀ (u : U2) (n : BitVec 7) (f : Frame), n.toNat ≤ 64 → Nat.iterate U2.tick n.toNat (u.start n f) = u.csum n f)

/-! ## Unit U2 -/

/-- CSUM (41_checksum.md R162) completes for every `n` in 0 to 64 from every state in which U2 is not busy; nothing
but U2 and port C changes. -/
def Obligations.CsumCompletes : Prop :=
  ∀ (n : BitVec 7) (f : Frame) (s : State), n.toNat ≤ 64 → s.u2.busy = false →
    exec (.csum n f) s = .next
      { s with
        u2 := { sum := BitVec.ofNat 8 (byteSum (f.toList.take n.toNat)), sidx := n, slen := n, frm := f, busy := false }
        portC := { s.portC with
          held := none
          out := s.portC.out ++ [.ok (.sum (BitVec.ofNat 8 (byteSum (f.toList.take n.toNat))))] } }

/-- CSIGN (R168) completes for every `n` in 0 to 63 from every state in which U2 is not busy: byte `n` is the sum of
the bytes below it, every other byte stays; nothing but U2 and port C changes. -/
def Obligations.CsignCompletes : Prop :=
  ∀ (n : BitVec 7) (f : Frame) (s : State), n.toNat ≤ 63 → s.u2.busy = false →
    ∃ g : Frame,
      (∀ (k : Nat) (h : k < 64), g[k] =
        if k = n.toNat then BitVec.ofNat 8 (byteSum (f.toList.take n.toNat)) else f[k]) ∧
      exec (.csign n f) s = .next
        { s with
          u2 := { sum := BitVec.ofNat 8 (byteSum (f.toList.take n.toNat)), sidx := n, slen := n, frm := g,
                  busy := false }
          portC := { s.portC with held := none, out := s.portC.out ++ [.ok (.frame g)] } }

/-- R161, 60_exceptions.md R253: out of range, CSUM and CSIGN answer `REF_LEN` and nothing else changes. That a
refusal is a next state is log entry 1; that the length check comes before the hold of a busy U2, so that no premise
on U2 is needed, is the model's reading (log entry 7). -/
def Obligations.LengthOutOfRangeIsRefused : Prop :=
  ∀ (n : BitVec 7) (f : Frame) (s : State),
    (64 < n.toNat → exec (.csum n f) s = .next
      { s with portC := { s.portC with held := none, out := s.portC.out ++ [.err .len] } }) ∧
    (63 < n.toNat → exec (.csign n f) s = .next
      { s with portC := { s.portC with held := none, out := s.portC.out ++ [.err .len] } })

/-- 41_checksum.md R166: the defining identity, on the answer of CSUM itself, and truncating at every addition or once
at the end is the same. -/
def Obligations.ChecksumIsTheSumModulo256 : Prop :=
  ∀ (f : Frame) (n : BitVec 7) (s : State), n.toNat ≤ 64 → s.u2.busy = false →
    (∃ (t : State) (v : Byte), exec (.csum n f) s = .next t ∧ t.portC.out = s.portC.out ++ [.ok (.sum v)] ∧
      v.toNat = byteSum (f.toList.take n.toNat) % 256) ∧
    (f.toList.take n.toNat).foldl (fun a b => BitVec.truncate 8 (a.zeroExtend 9 + b.zeroExtend 9)) (0 : Byte) =
      BitVec.ofNat 8 (byteSum (f.toList.take n.toNat))

/-- 41_checksum.md R164, the window law. -/
def Obligations.ChecksumWindowLaw : Prop :=
  ∀ (f f' : Frame) (n : BitVec 7) (s : State), n.toNat ≤ 64 → (∀ (k : Nat) (h : k < 64), k < n.toNat → f[k] = f'[k]) →
    s.u2.busy = false →
    ∃ t t', exec (.csum n f) s = .next t ∧ exec (.csum n f') s = .next t' ∧ t.portC.out = t'.portC.out ∧
      t.u2.sum = t'.u2.sum

/-- 41_checksum.md R167, the concatenation law. -/
def Obligations.ChecksumConcatenationLaw : Prop :=
  (∀ (f : Frame) (m n : Nat), m ≤ n → n ≤ 64 →
    additiveChecksum f n =
      BitVec.ofNat 8 ((additiveChecksum f m).toNat + byteSum ((f.toList.drop m).take (n - m)))) ∧
  (∀ (f : Frame) (n : Nat) (h : n < 64), additiveChecksum f (n + 1) = additiveChecksum f n + f[n])

/-- 41_checksum.md R168, R169: signing again at the same offset changes nothing, the signed byte is the sum below it,
and the sum over the signed prefix is twice the checksum. -/
def Obligations.SignedFramesAreFixedPoints : Prop :=
  ∀ (f : Frame) (n : Nat) (h : n < 64),
    signFrame (signFrame f n) n = signFrame f n ∧
    (signFrame f n)[n] = additiveChecksum (signFrame f n) n ∧
    additiveChecksum (signFrame f n) (n + 1) = 2 * (signFrame f n)[n]

/-- A busy unit accepts no request (10_state.md R52, 60_exceptions.md R255): the request holds and nothing else
changes. A command that signs waits in the same way while U2 is busy or port C has a request in flight. -/
def Obligations.BusyUnitsHoldRequests : Prop :=
  (∀ (n : BitVec 7) (b : Block) (s : State), s.u1.busy = true →
    exec (.crc32f n b) s = .next { s with portC := { s.portC with held := some (.crc32f n b) } } ∧
    exec (.crcsign n b) s = .next { s with portC := { s.portC with held := some (.crcsign n b) } }) ∧
  (∀ (n : BitVec 7) (f : Frame) (s : State), s.u2.busy = true →
    (n.toNat ≤ 64 → exec (.csum n f) s = .next { s with portC := { s.portC with held := some (.csum n f) } }) ∧
    (n.toNat ≤ 63 → exec (.csign n f) s = .next { s with portC := { s.portC with held := some (.csign n f) } })) ∧
  (∀ (i : Instr) (s : State), i.wire = .command → (∀ code, i ≠ .cmdUnknown code) →
    (∀ seq, i = .cmdList seq → s.params.listBaseLen + 8 * s.presentSlots.length + 2 ≤ 63) →
    s.u2.busy = true ∨ s.portC.held ≠ none →
    exec i s = .next { s with portW := { s.portW with held := some i } })

/-! ## Unit U3 -/

/-- PUSHR (42_mux.md R181) completes for every frame and every `n` while the reply queue has room; nothing but the
queue's tail and port W changes. -/
def Obligations.PushrCompletes : Prop :=
  ∀ (n : BitVec 7) (f : Frame) (s : State), s.params.rqDepth.fits (s.u3.rq.length + 1) = true →
    exec (.pushr n f) s = .next
      { s with
        u3 := { s.u3 with rq := s.u3.rq ++ [f] }
        portW := { s.portW with held := none, out := s.portW.out ++ [.ok .none] } }

/-- PUSHN (R184, R185) completes for every frame, every `n` and both modes while the notification queue has room;
nothing but the queue's tail and port E changes. -/
def Obligations.PushnCompletes : Prop :=
  ∀ (n : BitVec 7) (f : Frame) (s : State), s.params.nqDepth.fits (s.u3.nq.length + 1) = true →
    exec (.pushn n f) s = .next
      { s with
        u3 := { s.u3 with nq := s.u3.nq ++ [f] }
        portE := { s.portE with held := none, out := s.portE.out ++ [.ok .none] } }

/-- R182: on a full queue the push holds and nothing else changes. It is accepted at its port's turn once its queue
has room (60_exceptions.md R255): the frame is appended, the port answers OK and is free, and the agent that was
inside the exclusive region leaves it (the region is the model's field, log entry 15). -/
def Obligations.PushOnAFullQueueHolds : Prop :=
  ∀ (n : BitVec 7) (f : Frame) (s : State),
    (s.params.rqDepth.capacity? = some s.u3.rq.length →
      exec (.pushr n f) s = .next { s with portW := { s.portW with held := some (.pushr n f) } }) ∧
    (s.params.nqDepth.capacity? = some s.u3.nq.length →
      exec (.pushn n f) s = .next { s with portE := { s.portE with held := some (.pushn n f) } }) ∧
    (∀ ts, s.schedule = .writer :: ts → s.portW.held = some (.pushr n f) →
      s.params.rqDepth.fits (s.u3.rq.length + 1) = true → step s = .next
        { s with
          schedule := ts
          u3 := { s.u3 with rq := s.u3.rq ++ [f] }
          portW := { s.portW with held := none, out := s.portW.out ++ [.ok .none] }
          env := { s.env with region := if s.env.region = .writer then .free else s.env.region } }) ∧
    (∀ ts, s.schedule = .event :: ts → s.portE.held = some (.pushn n f) →
      s.params.nqDepth.fits (s.u3.nq.length + 1) = true → step s = .next
        { s with
          schedule := ts
          u3 := { s.u3 with nq := s.u3.nq ++ [f] }
          portE := { s.portE with held := none, out := s.portE.out ++ [.ok .none] }
          env := { s.env with region := if s.env.region = .event then .free else s.env.region } })

/-- WAKE (R186) completes from every state: `awake` is 1 and nothing but it and port W changes. -/
def Obligations.WakeCompletes : Prop :=
  ∀ (n : BitVec 7) (s : State),
    exec (.wake n) s = .next
      { s with
        u3 := { s.u3 with awake := true }
        portW := { s.portW with held := none, out := s.portW.out ++ [.ok .none] } }

/-- POLL (R189) is accepted from every state with no POLL pending: it is pending from then on, no queue changes and no
response is given; a second POLL holds. -/
def Obligations.PollIsAccepted : Prop :=
  ∀ (n : BitVec 7) (s : State),
    (s.u3.pstate = .idle → exec (.poll n) s = .next
      { s with u3 := { s.u3 with pstate := .pending, bcnt := 0 }, portR := { s.portR with held := none } }) ∧
    (s.u3.pstate = .pending → exec (.poll n) s = .next
      { s with portR := { s.portR with held := some (.poll n) } })

/-- 42_mux.md R190: `deliverable` and `select`. -/
def Obligations.DeliverableMeansSelectable : Prop :=
  ∀ u : U3,
    (u.deliverable = true ↔ (u.awake = true ∧ 0 < u.nq.length) ∨ 0 < u.rq.length) ∧
    (u.select = some .notifications ↔ u.awake = true ∧ 0 < u.nq.length) ∧
    (u.select = some .replies ↔ ¬(u.awake = true ∧ 0 < u.nq.length) ∧ 0 < u.rq.length) ∧
    (u.select = none ↔ ¬(u.awake = true ∧ 0 < u.nq.length) ∧ ¬ 0 < u.rq.length) ∧
    (u.deliverable = true ↔ u.select ≠ none)

/-- The delivery of a pending POLL (R191): once awake the oldest notification, else the oldest reply, leaves its queue
and is answered on port R, the POLL is no longer pending, and nothing else changes. -/
def Obligations.DeliveryTakesNotificationsFirst : Prop :=
  ∀ (s : State) (ts : List Turn) (f : Frame) (rest : List Frame),
    s.schedule = .deliver :: ts ∨ s.schedule = [] ∧ ts = [] → s.u3.pstate = .pending →
    (s.u3.awake = true → s.u3.nq = f :: rest → step s = .next
      { s with
        schedule := ts
        u3 := { s.u3 with nq := rest, pstate := .idle }
        portR := { s.portR with out := s.portR.out ++ [.ok (.frame f)] } }) ∧
    (s.u3.awake = false ∨ s.u3.nq = [] → s.u3.rq = f :: rest → step s = .next
      { s with
        schedule := ts
        u3 := { s.u3 with rq := rest, pstate := .idle }
        portR := { s.portR with out := s.portR.out ++ [.ok (.frame f)] } })

/-- The backoff counter (R194, 10_state.md R51, 60_exceptions.md R268): it counts only while a POLL is pending with
nothing deliverable, up to `BACKOFF_TICKS`; a failed attempt starts a new interval; nothing else changes. That an
attempt restarts the count, and that an attempt may come at any count, is the model's choice (log entry 9). -/
def Obligations.BackoffCountsOnlyWhileWaiting : Prop :=
  ∀ (s : State) (ts : List Turn),
    (s.schedule = .tick :: ts →
      step s = .next { s with
        schedule := ts
        u3 := { s.u3 with
          bcnt := if s.u3.pstate = .pending ∧ s.u3.deliverable = false ∧ s.u3.bcnt < s.params.backoffTicks then
              s.u3.bcnt + 1
            else s.u3.bcnt } }) ∧
    (s.schedule = .deliver :: ts → s.u3.pstate = .pending → s.u3.deliverable = false →
      step s = .next { s with schedule := ts, u3 := { s.u3 with bcnt := 0 } }) ∧
    (s.schedule = .deliver :: ts → s.u3.pstate = .idle → step s = .next { s with schedule := ts })

/-- Blocking (R192, R193): however many steps U3, the clock, the Reader and the host's other calls take, a pending
POLL with nothing deliverable stays pending and no frame is delivered. Nothing holds on ports W and E, or the run is
no longer than the schedule: past its end the block takes a holding push by itself (log entry 6). -/
def Obligations.BlockedPollNeverTimesOut : Prop :=
  ∀ (k : Nat) (s t : State), RunsTo k s t → s.u3.pstate = .pending → s.u3.deliverable = false →
    (∀ x ∈ s.schedule, x = .deliver ∨ x = .tick ∨ x = .reader ∨ ∃ c, x = .hostCall c) →
    (∀ p, p ≠ .r → s.heldOn p = none) ∨ k ≤ s.schedule.length →
    t.u3.pstate = .pending ∧ t.u3.rq = s.u3.rq ∧ t.u3.nq = s.u3.nq ∧ t.u3.awake = s.u3.awake ∧
      t.delivered = s.delivered

/-- What lifts the wait (R192): a step after which a waiting POLL has something deliverable appended a reply, appended
a notification while awake, or set `awake` with a notification waiting. -/
def Obligations.OnlyPushesAndWakeLiftTheWait : Prop :=
  ∀ s t : State, step s = .next t → s.resetNext = false → s.u3.pstate = .pending → s.u3.deliverable = false →
    t.u3.deliverable = true →
    t.u3.pstate = .pending ∧
      ((∃ f, t.u3.rq = s.u3.rq ++ [f]) ∨ (s.u3.awake = true ∧ ∃ f, t.u3.nq = s.u3.nq ++ [f]) ∨
        (s.u3.awake = false ∧ t.u3.awake = true ∧ s.u3.nq ≠ []))

/-- The asleep law (R197): while `awake` is 0 no step but `rst` removes anything from the notification queue. -/
def Obligations.AsleepNoNotificationIsDelivered : Prop :=
  ∀ s t : State, step s = .next t → s.resetNext = false → s.u3.awake = false → s.u3.nq <+: t.u3.nq

/-- `awake`, once 1, stays 1 until reset (10_state.md R39, R49). -/
def Obligations.AwakeIsMonotone : Prop :=
  ∀ s t : State, step s = .next t → s.resetNext = false → s.u3.awake = true → t.u3.awake = true

/-- Every step but `rst` leaves the queues as they are, appends the operand of a presented push that is answered OK,
or delivers the head of a queue by the priority rule (42_mux.md R191, R198, R199): see `QueueMove`. -/
def Obligations.EveryStepMovesTheQueuesByTheRules : Prop :=
  ∀ s t : State, step s = .next t → s.resetNext = false → ∃ m, QueueMove s t m

/-- Conservation and order over every run without `rst` (R198 a, b, e): the run makes one move a step, and every push
among the moves is a presented PUSHR or PUSHN that was accepted and answered (`QueueMove`). At every point of the run
the replies delivered so far are the first ones of what was queued at the start and then pushed so far, and likewise
the notifications; what is not yet delivered is still in its queue; nothing else is delivered; every OK of port E is
one of those PUSHNs. -/
def Obligations.RunsConserveFramesInOrder : Prop :=
  ∀ (k : Nat) (s t : State), RunsTo k s t →
    ∃ ms : List Move, ms.length = k ∧ MovesTo ms s t ∧
      (∀ pre suf, ms = pre ++ suf →
        poppedReplies pre <+: s.u3.rq ++ pushedReplies pre ∧
        poppedNotifications pre <+: s.u3.nq ++ pushedNotifications pre) ∧
      s.u3.rq ++ pushedReplies ms = poppedReplies ms ++ t.u3.rq ∧
      s.u3.nq ++ pushedNotifications ms = poppedNotifications ms ++ t.u3.nq ∧
      t.delivered = s.delivered ++ poppedFrames ms ∧
      (poppedFrames ms).Perm (poppedReplies ms ++ poppedNotifications ms) ∧
      t.okCount .e = s.okCount .e + (pushedNotifications ms).length ∧
      t.u3.rq.length + t.u3.nq.length + (poppedFrames ms).length =
        s.u3.rq.length + s.u3.nq.length + (pushedReplies ms).length + (pushedNotifications ms).length ∧
      (s.u3.awake = false → t.u3.awake = false → poppedNotifications ms = [])

/-! ## Refusals and independence -/

/-- The order of the refusal checks (60_exceptions.md R254, R261), for a step that presents a request: reserved code,
then port, then length; the turn and the script entry are consumed, the port answers ERR and is free, and nothing else
changes. The byte layout of the header is log entry 2, that a reserved code is refused whatever follows it log entry
18, that the length check comes before the hold of a busy U2 log entry 7, and that a refusal is a next state log entry
1. -/
def Obligations.RefusalChecksInOrder : Prop :=
  ∀ (p : PortId) (lo hi : Byte) (data : List Byte) (s s' : State), TurnPresents p (lo :: hi :: data) s s' →
    hi.toNat < 8 →
    let hdr : BitVec 11 := BitVec.truncate 11 (hi ++ lo)
    (hdr.extractLsb' 7 4 ∈
        [0b0010#4, 0b0011#4, 0b0110#4, 0b0111#4, 0b1100#4, 0b1101#4, 0b1110#4, 0b1111#4] →
      step s = .next (s'.refuse p .badOp)) ∧
    (∀ o : Op, hdr.extractLsb' 7 4 = o.code → data.length = o.operandLen →
      (o.port ≠ p → step s = .next (s'.refuse p .port)) ∧
      (o.port = p → o = .csum → 64 < (hdr.extractLsb' 0 7).toNat → step s = .next (s'.refuse p .len)) ∧
      (o.port = p → o = .csign → 63 < (hdr.extractLsb' 0 7).toNat → step s = .next (s'.refuse p .len)))

/-- A step in which some port answers `ERR` leaves every register, buffer, queue and the mode of the block as they
were (60_exceptions.md R251). -/
def Obligations.RefusedRequestChangesNoBlockState : Prop :=
  ∀ (s t : State) (p : PortId) (c : RefCode), step s = .next t → t.outOf p = s.outOf p ++ [.err c] →
    t.u1 = s.u1 ∧ t.u2 = s.u2 ∧ t.u3 = s.u3

/-- No operation of one unit reads or writes any state of another (10_state.md R37, 41_checksum.md R171): what the
other units hold passes through unchanged and changes nothing else. The clauses are U1 and U2 against U3, U3 against
U1 and U2, U1 against U2, and U2 against U1. -/
def Obligations.UnitsAreIndependent : Prop :=
  (∀ (i : Instr) (s : State) (u : U3), i.wire = .request → i.port = .c →
    exec i { s with u3 := u } = mapNext (fun t => { t with u3 := u }) (exec i s)) ∧
  (∀ (i : Instr) (s : State) (a : U1) (b : U2), i.wire = .request → i.port ≠ .c →
    exec i { s with u1 := a, u2 := b } = mapNext (fun t => { t with u1 := a, u2 := b }) (exec i s)) ∧
  (∀ (i : Instr) (s : State) (b : U2), (∃ n d, i = .crc32f n d ∨ i = .crcsign n d) →
    exec i { s with u2 := b } = mapNext (fun t => { t with u2 := b }) (exec i s)) ∧
  (∀ (i : Instr) (s : State) (a : U1), (∃ n f, i = .csum n f ∨ i = .csign n f) →
    exec i { s with u1 := a } = mapNext (fun t => { t with u1 := a }) (exec i s))

/-! ## The Command Processor -/

/-- CMD.WAKE (43_client_sequences.md R212) completes whenever U2, port C and the reply queue can take its operations:
`awake` is 1 and the handshake frame is signed and pushed; nothing else changes. -/
def Obligations.CmdWakeCompletes : Prop :=
  ∀ (seq : Byte) (s : State), s.u2.busy = false → s.portC.held = none →
    s.params.rqDepth.fits (s.u3.rq.length + 1) = true →
    ∃ t, exec (.cmdWake seq) s = .next t ∧
      SignedReply s t
        ([s.params.respMarker, BitVec.ofNat 8 s.params.wakeLen, 0xB0, seq] ++ s.params.wakeBytes) ∧
      t = { s with
        u2 := t.u2
        u3 := { s.u3 with awake := true, rq := t.u3.rq }
        portC := t.portC
        portW := { s.portW with held := none, out := s.portW.out ++ [.ok .none, .ok .none] } }

/-- CMD.ACK with either code (R213) completes under the same conditions: marker, length 2, echoed code and sequence
number, checksum; nothing else changes. -/
def Obligations.CmdAckCompletes : Prop :=
  ∀ (seq : Byte) (s : State), s.u2.busy = false → s.portC.held = none →
    s.params.rqDepth.fits (s.u3.rq.length + 1) = true →
    (∃ t, exec (.cmdAckC0 seq) s = .next t ∧ SignedReply s t [s.params.respMarker, 2, 0xC0, seq] ∧
      t = { s with
        u2 := t.u2
        u3 := { s.u3 with rq := t.u3.rq }
        portC := t.portC
        portW := { s.portW with held := none, out := s.portW.out ++ [.ok .none] } }) ∧
    (∃ t, exec (.cmdAckC3 seq) s = .next t ∧ SignedReply s t [s.params.respMarker, 2, 0xC3, seq] ∧
      t = { s with
        u2 := t.u2
        u3 := { s.u3 with rq := t.u3.rq }
        portC := t.portC
        portW := { s.portW with held := none, out := s.portW.out ++ [.ok .none] } })

/-- CMD.LIST (R214) completes when the list fits a frame: one entry of `0x09` and the uid for each present slot in
index order, the length field grown by 8 for each; the registry is only read and nothing else changes. -/
def Obligations.CmdListCompletes : Prop :=
  ∀ (seq : Byte) (s : State), s.u2.busy = false → s.portC.held = none →
    s.params.rqDepth.fits (s.u3.rq.length + 1) = true →
    s.params.listBaseLen + 8 * s.presentSlots.length + 2 ≤ 63 →
    ∃ t, exec (.cmdList seq) s = .next t ∧
      SignedReply s t
        ([s.params.respMarker, BitVec.ofNat 8 (s.params.listBaseLen + 8 * s.presentSlots.length), 0xD0, seq] ++
          List.replicate (s.params.listBaseLen - 2) 0 ++
          s.presentSlots.flatMap (fun i => 0x09 :: s.env.slots[i].uid.toList)) ∧
      t = { s with
        u2 := t.u2
        u3 := { s.u3 with rq := t.u3.rq }
        portC := t.portC
        portW := { s.portW with held := none, out := s.portW.out ++ [.ok .none] } }

/-- R222, with the bound of R214: a List Tags response that does not fit a frame is refused, and no frame is invented.
R222 speaks of more than 7 present slots; refusing fewer with a larger `LIST_BASE_LEN`, and before the wait for port
C, is the model's reading (log entry 21). -/
def Obligations.ListTagsThatDoesNotFitIsRefused : Prop :=
  ∀ (seq : Byte) (s : State), 63 < s.params.listBaseLen + 8 * s.presentSlots.length + 2 →
    exec (.cmdList seq) s = .refused .listTagsTooLong

/-- CMD.READ (R215, R228, R229) completes, on a hit with the 16 bytes of the addressed block at bytes 5 to 20, on a
miss with zero bytes there; the registry is only read and nothing else changes. That the lowest present slot with the
uid is the one found is the model's reading of "linear scan" (log entry 26). -/
def Obligations.CmdReadCompletes : Prop :=
  ∀ (seq : Byte) (uid : Uid) (sector block : Byte) (s : State), s.u2.busy = false → s.portC.held = none →
    s.params.rqDepth.fits (s.u3.rq.length + 1) = true →
    ∃ t, exec (.cmdRead seq uid sector block) s = .next t ∧
      (∀ i ∈ s.presentSlots, s.env.slots[i].uid = uid →
        (∀ j ∈ s.presentSlots, s.env.slots[j].uid = uid → i ≤ j) → sector.toNat < 5 → block.toNat < 4 →
        SignedReply s t ([s.params.respMarker, 0x13, 0xD2, seq, 0] ++
          (s.env.slots[i].data.toList.drop (sector.toNat * 64 + block.toNat * 16)).take 16)) ∧
      ((∀ i ∈ s.presentSlots, s.env.slots[i].uid ≠ uid) ∨ 5 ≤ sector.toNat ∨ 4 ≤ block.toNat →
        SignedReply s t ([s.params.respMarker, 0x13, 0xD2, seq, 0] ++ List.replicate 16 0)) ∧
      t = { s with
        u2 := t.u2
        u3 := { s.u3 with rq := t.u3.rq }
        portC := t.portC
        portW := { s.portW with held := none, out := s.portW.out ++ [.ok .none] } }

/-- CMD.WRITE (R216, R230) completes with the Acknowledge-shaped response on hit and miss. On a hit the 16 bytes of
the addressed block of the lowest slot with that uid (log entry 26) are the payload and every other byte and slot
stays; on a miss the registry stays. What the slot's uid becomes after a write to block (0, 0) is left open (log entry
12). -/
def Obligations.CmdWriteCompletes : Prop :=
  ∀ (seq : Byte) (uid : Uid) (sector block : Byte) (payload : Block) (s : State),
    s.u2.busy = false → s.portC.held = none → s.params.rqDepth.fits (s.u3.rq.length + 1) = true →
    ∃ t, exec (.cmdWrite seq uid sector block payload) s = .next t ∧
      SignedReply s t [s.params.respMarker, 2, 0xD3, seq] ∧
      (∀ i ∈ s.presentSlots, s.env.slots[i].uid = uid →
        (∀ j ∈ s.presentSlots, s.env.slots[j].uid = uid → i ≤ j) → sector.toNat < 5 → block.toNat < 4 →
        (∀ j : Fin 8, j ≠ i → t.env.slots[j] = s.env.slots[j]) ∧
        (∀ (k : Nat) (h : k < 320), t.env.slots[i].data[k] =
          if sector.toNat * 64 + block.toNat * 16 ≤ k ∧ k < sector.toNat * 64 + block.toNat * 16 + 16 then
            payload.toList.getD (k - (sector.toNat * 64 + block.toNat * 16)) 0
          else s.env.slots[i].data[k]) ∧
        t.env.slots[i].present = true ∧ t.env.slots[i].handle = s.env.slots[i].handle ∧
        (sector ≠ 0 ∨ block ≠ 0 → t.env.slots[i].uid = uid ∧ t.drawn = s.drawn)) ∧
      ((∀ i ∈ s.presentSlots, s.env.slots[i].uid ≠ uid) ∨ 5 ≤ sector.toNat ∨ 4 ≤ block.toNat →
        t.env = s.env ∧ t.drawn = s.drawn) ∧
      t = { s with
        u2 := t.u2
        u3 := { s.u3 with rq := t.u3.rq }
        portC := t.portC
        portW := { s.portW with held := none, out := s.portW.out ++ [.ok .none] }
        env := { s.env with slots := t.env.slots }
        drawn := t.drawn }

/-- CMD.UNKNOWN (R217, 30_encoding.md R122) completes whenever the reply queue has room: 64 zero bytes are pushed,
nothing is signed and nothing else changes. -/
def Obligations.CmdUnknownCompletes : Prop :=
  ∀ (code : Byte) (s : State), s.params.rqDepth.fits (s.u3.rq.length + 1) = true →
    exec (.cmdUnknown code) s = .next
      { s with
        u3 := { s.u3 with rq := s.u3.rq ++ [Vector.replicate 64 0] }
        portW := { s.portW with held := none, out := s.portW.out ++ [.ok .none] } }

/-- One command, one reply (R211): a command that starts ends in exactly one PUSHR, accepted when the reply queue has
room. When it is full, everything but the PUSHR is as from the same state with an empty reply queue: the frame that
would be pushed there holds on port W, unanswered, with the Writer inside the exclusive region (log entries 8 and 15);
`awake` is set by CMD.WAKE and the block written by CMD.WRITE all the same. -/
def Obligations.OneCommandOneReply : Prop :=
  ∀ (i : Instr) (s t : State), i.wire = .command → s.u2.busy = false → s.portC.held = none → exec i s = .next t →
    t.u3.nq = s.u3.nq ∧ t.u3.pstate = s.u3.pstate ∧
    (s.params.rqDepth.fits (s.u3.rq.length + 1) = true →
      t.portW.held = none ∧ ∃ g, t.u3.rq = s.u3.rq ++ [g]) ∧
    (s.params.rqDepth.fits (s.u3.rq.length + 1) = false →
      (∃ t₀ g, exec i { s with u3 := { s.u3 with rq := [] } } = .next t₀ ∧ t₀.u3.rq = [g] ∧
        t₀.portW.held = none ∧
        t = { t₀ with
          u3 := { t₀.u3 with rq := s.u3.rq }
          portW := { t₀.portW with held := some (.pushr 0 g), out := t₀.portW.out.dropLast }
          env := { t₀.env with region := .writer } }) ∧
      ((∃ seq, i = .cmdWake seq) → t.u3.awake = true) ∧
      (∀ seq uid sector block payload, i = .cmdWrite seq uid sector block payload →
        t.env.slots = (s.writeBlock uid sector block payload).env.slots))

/-- Round trip (R230): after a write of a present uid to a block other than (0, 0), a read of the same block gives the
payload. Block (0, 0) is left out: whether the uid follows is not in source (log entry 12). -/
def Obligations.ReadAfterWriteGivesThePayload : Prop :=
  ∀ (s : State) (uid : Uid) (sector block : Byte) (payload : Block),
    (∃ i ∈ s.presentSlots, s.env.slots[i].uid = uid) → sector.toNat < 5 → block.toNat < 4 → sector ≠ 0 ∨ block ≠ 0 →
    (s.writeBlock uid sector block payload).env.readBlock s.params uid sector block = some payload

/-! ## The environment's events -/

/-- An attach (R218, R226) takes the lowest-indexed free slot, copies the blob, owns the handle, derives the uid from
the first 7 bytes, and, awake or with `ENV_NOTIFY_WHEN_ASLEEP`, signs one notification and pushes it; on a full queue
its PUSHN holds, with the Event agent inside the exclusive region or not as the parameter says
(70_reset_and_hazards.md R295, log entry 15). Nothing else changes. That the call has returned while its PUSHN holds
is log entry 28. Otherwise nothing changes: the attach waits while somebody is inside the region (log entry 15) or its
notification cannot be signed (log entry 27), and the model of the environment refuses a uid that a present slot holds
(93_implementation_defined.md U14) or a handle that one owns (log entry 13). -/
def Obligations.AttachTakesTheLowestFreeSlot : Prop :=
  ∀ (s : State) (ts : List Turn) (blob : Image) (handle : Nat) (rest : List EventJob),
    s.schedule = .event :: ts → s.portE.held = none → s.portE.script = .attach blob handle :: rest →
    (s.env.region ≠ .free → step s = .next { s with schedule := ts }) ∧
    (s.env.region = .free → ∀ i : Fin 8, i.val < s.params.numSlots → s.env.slots[i].present = false →
      (∀ j : Fin 8, j < i → s.env.slots[j].present = true) →
      ((∃ j ∈ s.presentSlots, s.env.slots[j].uid.toList = blob.toList.take 7) → step s = .refused .duplicateUid) ∧
      ((∀ j ∈ s.presentSlots, s.env.slots[j].uid.toList ≠ blob.toList.take 7) →
        (∃ j ∈ s.presentSlots, s.env.slots[j].handle = some handle) → step s = .refused .handleInUse) ∧
      ((∀ j ∈ s.presentSlots, s.env.slots[j].uid.toList ≠ blob.toList.take 7 ∧ s.env.slots[j].handle ≠ some handle) →
        s.u3.awake = true ∨ s.params.notifyWhenAsleep = true → s.u2.busy = true ∨ s.portC.held ≠ none →
        step s = .next { s with schedule := ts }) ∧
      ((∀ j ∈ s.presentSlots, s.env.slots[j].uid.toList ≠ blob.toList.take 7 ∧ s.env.slots[j].handle ≠ some handle) →
        (s.u3.awake = true ∨ s.params.notifyWhenAsleep = true → s.u2.busy = false ∧ s.portC.held = none) →
        ∃ (t : State) (uid : Uid), step s = .next t ∧ uid.toList = blob.toList.take 7 ∧
          (s.u3.awake = true ∨ s.params.notifyWhenAsleep = true →
            (s.params.nqDepth.fits (s.u3.nq.length + 1) = true →
              SignedNotification s t
                ([s.params.notifMarker, s.params.subtype0, s.params.subtype1, 1] ++ blob.toList.take 7) ∧
              t.portE = { script := rest, held := none, out := s.portE.out ++ [.ok .none] } ∧ t.env.region = .free) ∧
            (s.params.nqDepth.fits (s.u3.nq.length + 1) = false →
              HeldNotification s t
                ([s.params.notifMarker, s.params.subtype0, s.params.subtype1, 1] ++ blob.toList.take 7) ∧
              t.portE = { script := rest, held := t.portE.held, out := s.portE.out } ∧
              t.env.region = if s.params.eventKeepsRegion then .event else .free)) ∧
          (s.u3.awake = false → s.params.notifyWhenAsleep = false →
            t.u2 = s.u2 ∧ t.u3 = s.u3 ∧ t.portC = s.portC ∧ t.portE = { s.portE with script := rest } ∧
              t.env.region = .free) ∧
          t = { s with
            u2 := t.u2
            u3 := t.u3
            portC := t.portC
            portE := t.portE
            schedule := ts
            env := { s.env with
              slots := s.env.slots.set i { present := true, uid := uid, data := blob, handle := some handle }
              region := t.env.region
              results := s.env.results ++ [.loaded i.val] } }))

/-- An attach to a full registry answers `Full`; no slot changes and no notification is made (R218, R226). It does so for
every blob and handle, also for a uid or handle that a present slot has, which 91_not_in_source.md N11 and
93_implementation_defined.md U14 say a model refuses: that `Full` comes before those checks is the model's reading (log
entry 13). -/
def Obligations.AttachToAFullRegistryChangesNothing : Prop :=
  ∀ (s : State) (ts : List Turn) (blob : Image) (handle : Nat) (rest : List EventJob),
    s.schedule = .event :: ts → s.portE.held = none → s.portE.script = .attach blob handle :: rest →
    s.env.region = .free → (∀ j : Fin 8, j.val < s.params.numSlots → s.env.slots[j].present = true) →
    step s = .next
      { s with
        schedule := ts
        portE := { s.portE with script := rest }
        env := { s.env with results := s.env.results ++ [.full] } }

/-- A detach (R218, R227) of a present figure persists the blob to the owned handle, releases it, clears the uid,
marks the slot absent and, awake or with `ENV_NOTIFY_WHEN_ASLEEP`, signs one notification and pushes it, or holds its
PUSHN on a full queue (70_reset_and_hazards.md R295, log entry 15); of an empty slot it answers false and does nothing
else. It waits while somebody is inside the region (log entry 15) or its notification cannot be signed (log entry 27),
and an index that is no slot is refused (log entry 13). That a cleared uid is seven zero bytes and that the slot keeps
its data bytes is the model's choice (log entry 17); that the call has returned while its PUSHN holds is log entry 28.
-/
def Obligations.DetachPersistsAndReleases : Prop :=
  ∀ (s : State) (ts : List Turn) (slot : Nat) (rest : List EventJob),
    s.schedule = .event :: ts → s.portE.held = none → s.portE.script = .detach slot :: rest →
    (s.env.region ≠ .free → step s = .next { s with schedule := ts }) ∧
    (s.env.region = .free → s.params.numSlots ≤ slot → step s = .refused .noSuchSlot) ∧
    (∀ i : Fin 8, s.env.region = .free → slot = i.val → i.val < s.params.numSlots →
      (∀ h, s.env.slots[i].present = true → s.env.slots[i].handle = some h →
        (s.u3.awake = true ∨ s.params.notifyWhenAsleep = true → s.u2.busy = false ∧ s.portC.held = none) →
        ∃ t : State, step s = .next t ∧
          getFile h t.env.files = some s.env.slots[i].data ∧
          (∀ h', h' ≠ h → getFile h' t.env.files = getFile h' s.env.files) ∧
          (s.u3.awake = true ∨ s.params.notifyWhenAsleep = true →
            (s.params.nqDepth.fits (s.u3.nq.length + 1) = true →
              SignedNotification s t
                ([s.params.notifMarker, s.params.subtype0, s.params.subtype1, 0] ++ s.env.slots[i].uid.toList) ∧
              t.portE = { script := rest, held := none, out := s.portE.out ++ [.ok .none] } ∧
              t.env.region = .free) ∧
            (s.params.nqDepth.fits (s.u3.nq.length + 1) = false →
              HeldNotification s t
                ([s.params.notifMarker, s.params.subtype0, s.params.subtype1, 0] ++ s.env.slots[i].uid.toList) ∧
              t.portE = { script := rest, held := t.portE.held, out := s.portE.out } ∧
              t.env.region = if s.params.eventKeepsRegion then .event else .free)) ∧
          (s.u3.awake = false → s.params.notifyWhenAsleep = false →
            t.u2 = s.u2 ∧ t.u3 = s.u3 ∧ t.portC = s.portC ∧ t.portE = { s.portE with script := rest } ∧
              t.env.region = .free) ∧
          t = { s with
            u2 := t.u2
            u3 := t.u3
            portC := t.portC
            portE := t.portE
            schedule := ts
            env := { s.env with
              slots := s.env.slots.set i
                { s.env.slots[i] with present := false, uid := Vector.replicate 7 0, handle := none }
              files := t.env.files
              region := t.env.region
              results := s.env.results ++ [.removed true] } }) ∧
      (s.env.slots[i].present = true → s.u3.awake = true ∨ s.params.notifyWhenAsleep = true →
        s.u2.busy = true ∨ s.portC.held ≠ none → step s = .next { s with schedule := ts }) ∧
      (s.env.slots[i].present = false → step s = .next
        { s with
          schedule := ts
          portE := { s.portE with script := rest }
          env := { s.env with results := s.env.results ++ [.removed false] } }))

/-- Figure creation (R219, 30_encoding.md R110): CRCSIGN runs on the descriptor that the Builder's layout makes of one
random byte and the two operands, and the new backing file holds an image with the Builder's structural bytes at offsets
0, 6, 7, 8 and 10 and that signed descriptor at 16. The random bytes and the bytes the source does not name are left open
(93_implementation_defined.md U11, U19; how the parameters and draws are held is log entry 29). No other file, no slot and
no queue is touched. When the store fails, no file appears; nor when the handle already names a file or is owned by a
slot, and CRCSIGN runs first in each case (the model's choice, log entry 14). While U1 is busy the creation waits (log
entry 27). The stored byte order assumes `CRC_STORE_ORDER` = formula (log entry 10). -/
def Obligations.CreatedFigureHasASignedDescriptor : Prop :=
  ∀ (s : State) (ts : List Turn) (identityType identityId : List Byte) (handle : Nat) (ok : Bool)
    (rest : List ComputeJob),
    s.schedule = .compute :: ts → s.portC.held = none →
    s.portC.script = .newFigure identityType identityId handle ok :: rest →
    (s.u1.busy = true → step s = .next { s with schedule := ts }) ∧
    (s.u1.busy = false →
      ∃ (t : State) (d : Block) (random : Byte), step s = .next t ∧
        (∀ (k : Nat) (h : k < 12), d[k] = match s.params.builder.layout[k] with
          | .random => random
          | .structural v => v
          | .separator v => v
          | .identityType j => identityType.getD j 0
          | .identityId j => identityId.getD j 0) ∧
        beWord d[12] d[13] d[14] d[15] = figureCrc d ∧
        t.portC = { script := rest, held := none, out := s.portC.out ++ [.ok (.block d)] } ∧
        t.u1 = { crc := figureCrc d, cidx := 12, blk := d, busy := false } ∧
        (ok = true → getFile handle s.env.files = none → (∀ i ∈ s.presentSlots, s.env.slots[i].handle ≠ some handle) →
          t.env.results = s.env.results ++ [.created true] ∧
          (∃ img : Image, getFile handle t.env.files = some img ∧
            img[0] = s.params.builder.byte0 ∧ img[6] = s.params.builder.byte6 ∧ img[7] = s.params.builder.byte7 ∧
            img[8] = s.params.builder.byte8 ∧ img[9] = s.params.builder.byte9 ∧ img[10] = s.params.builder.byte10 ∧
            (img.toList.drop 16).take 16 = d.toList) ∧
          (∀ h', h' ≠ handle → getFile h' t.env.files = getFile h' s.env.files)) ∧
        (ok = false ∨ getFile handle s.env.files ≠ none ∨
            (∃ i ∈ s.presentSlots, s.env.slots[i].handle = some handle) →
          t.env = { s.env with results := s.env.results ++ [.created false] }) ∧
        t = { s with
          u1 := t.u1
          portC := t.portC
          schedule := ts
          drawn := t.drawn
          env := { s.env with files := t.env.files, results := t.env.results } })

/-! ## Reset, status, invariant -/

/-- The reset values that 10_state.md R58 gives, and the empty registry. The bytes of `blk` and `frm`, which it leaves
unspecified, are not part of this statement. -/
def Obligations.ResetLeavesTheStatedValues : Prop :=
  State.reset.u3 = { awake := false, rq := [], nq := [], pstate := .idle, bcnt := 0 } ∧
  State.reset.u1.crc = 0 ∧ State.reset.u1.cidx = 0 ∧ State.reset.u1.busy = false ∧
  State.reset.u2.sum = 0 ∧ State.reset.u2.sidx = 0 ∧ State.reset.u2.slen = 0 ∧ State.reset.u2.busy = false ∧
  State.reset.status = 0 ∧ (∀ i : Fin 8, State.reset.env.slots[i].present = false)

/-- Asserting `rst` (70_reset_and_hazards.md R280 to R284): the block is asleep with empty queues, no POLL pending and
zero accumulators, requests in flight are dropped without a response, and the registry, the files and the agents'
scripts stay. -/
def Obligations.RstDropsWhatIsInFlight : Prop :=
  ∀ (s : State) (ts : List Turn), s.schedule = .rst :: ts →
    ∃ t, step s = .next t ∧ t.u3 = { awake := false, rq := [], nq := [], pstate := .idle, bcnt := 0 } ∧
      t.u1.crc = 0 ∧ t.u1.cidx = 0 ∧ t.u1.busy = false ∧
      t.u2.sum = 0 ∧ t.u2.sidx = 0 ∧ t.u2.slen = 0 ∧ t.u2.busy = false ∧
      (∀ p, t.heldOn p = none ∧ t.outOf p = s.outOf p) ∧
      t.portC.script = s.portC.script ∧ t.portW.script = s.portW.script ∧ t.portE.script = s.portE.script ∧
      t.portR.script = s.portR.script ∧
      t.env.slots = s.env.slots ∧ t.env.files = s.env.files ∧ t.env.results = s.env.results ∧
      t.params = s.params ∧ t.schedule = ts

/-- The host's lifecycle and descriptor calls change nothing (42_mux.md R187, 43_client_sequences.md R220,
70_reset_and_hazards.md R284), and no step changes a parameter (10_state.md R42). -/
def Obligations.HostCallsAndParametersAreInert : Prop :=
  (∀ (s : State) (ts : List Turn) (c : HostCall), s.schedule = .hostCall c :: ts →
    step s = .next { s with schedule := ts }) ∧
  (∀ s t : State, step s = .next t → t.params = s.params)

/-- The fields of the `STATUS` view (10_state.md R40, R43), for queues within their depths. -/
def Obligations.StatusShowsTheDerivedPredicates : Prop :=
  ∀ s : State, s.params.rqDepth.fits s.u3.rq.length = true → s.params.nqDepth.fits s.u3.nq.length = true →
    s.status.getLsbD 0 = s.u3.awake ∧
    s.status.getLsbD 1 = decide (0 < s.u3.rq.length) ∧
    s.status.getLsbD 2 = decide (0 < s.u3.nq.length) ∧
    s.status.getLsbD 3 = decide ((s.u3.awake = true ∧ 0 < s.u3.nq.length) ∨ 0 < s.u3.rq.length) ∧
    s.status.getLsbD 4 = decide (s.u3.pstate = .pending) ∧
    s.status.getLsbD 5 = decide (s.params.rqDepth.capacity? = some s.u3.rq.length) ∧
    s.status.getLsbD 6 = decide (s.params.nqDepth.capacity? = some s.u3.nq.length) ∧
    s.status.getLsbD 7 = false

/-- Every step keeps the invariant, from every state that has it and under every schedule and script. Parts of the
invariant are the model's: the zero bytes of a cleared uid and the order of the files (log entry 17), the region
clauses (log entry 15), the idle units (log entry 7), and that a write to block (0, 0) keeps uids apart (log entry
12). -/
def Obligations.EveryStepKeepsTheInvariant : Prop :=
  ∀ s t : State, s.Inv → step s = .next t → t.Inv

/-- The reset state has the invariant. -/
def Obligations.ResetHasTheInvariant : Prop :=
  State.reset.Inv

/-- Weak fairness of `pollDeliver`, `pushR` and `pushN` (42_mux.md R194, R199, 70_reset_and_hazards.md R300), over
every endless run without `rst` from a point at which each port holds only a request of its own: a delivery that is
enabled is made at last, and a holding PUSHR or PUSHN whose queue has room is accepted at last. How soon is open; that
the schedule is finite and the block then moves by itself is the model's form (log entry 6). -/
def Obligations.EveryEndlessRunIsWeaklyFair : Prop :=
  ∀ (r : Nat → State) (k : Nat), EndlessRun r → (∀ p i, (r k).heldOn p = some i → i.port = p) →
    ((r k).u3.pstate = .pending → (r k).u3.deliverable = true →
      ∃ j f, k ≤ j ∧ (r (j + 1)).delivered = (r j).delivered ++ [f] ∧ (r (j + 1)).u3.pstate = .idle) ∧
    (∀ n f, (r k).portW.held = some (.pushr n f) →
      (r k).params.rqDepth.fits ((r k).u3.rq.length + 1) = true →
      ∃ j, k ≤ j ∧ (r (j + 1)).u3.rq = (r j).u3.rq ++ [f] ∧ (r (j + 1)).portW.held = none ∧
        (r (j + 1)).portW.out = (r j).portW.out ++ [.ok .none]) ∧
    (∀ n f, (r k).portE.held = some (.pushn n f) →
      (r k).params.nqDepth.fits ((r k).u3.nq.length + 1) = true →
      ∃ j, k ≤ j ∧ (r (j + 1)).u3.nq = (r j).u3.nq ++ [f] ∧ (r (j + 1)).portE.held = none ∧
        (r (j + 1)).portE.out = (r j).portE.out ++ [.ok .none])
end

