-- ==== Sys2Proof/Laws/State.lean ====
section
/-!
SUPPORT. One lemma per field per named update of State: what each shared update leaves as it was and what it writes.
-/

namespace Sys2Proof.Machine

/-! ## Ports -/

section Ports

variable {J : Type} (p : Port J) (r : Response) (i : Instr)

@[simp] theorem Port.emit_script : (p.emit r).script = p.script := rfl
@[simp] theorem Port.emit_held : (p.emit r).held = p.held := rfl
@[simp] theorem Port.emit_out : (p.emit r).out = p.out ++ [r] := rfl
@[simp] theorem Port.complete_script : (p.complete r).script = p.script := rfl
@[simp] theorem Port.complete_held : (p.complete r).held = none := rfl
@[simp] theorem Port.complete_out : (p.complete r).out = p.out ++ [r] := rfl
@[simp] theorem Port.hold_script : (p.hold i).script = p.script := rfl
@[simp] theorem Port.hold_held : (p.hold i).held = some i := rfl
@[simp] theorem Port.hold_out : (p.hold i).out = p.out := rfl

end Ports

/-! ## Completing and holding a request -/

section Requests

variable (s : State) (p : PortId) (r : Response) (i : Instr) (c : RefCode)

@[simp] theorem State.complete_params : (s.complete p r).params = s.params := by cases p <;> rfl
@[simp] theorem State.complete_u1 : (s.complete p r).u1 = s.u1 := by cases p <;> rfl
@[simp] theorem State.complete_u2 : (s.complete p r).u2 = s.u2 := by cases p <;> rfl
@[simp] theorem State.complete_u3 : (s.complete p r).u3 = s.u3 := by cases p <;> rfl
@[simp] theorem State.complete_env : (s.complete p r).env = s.env := by cases p <;> rfl
@[simp] theorem State.complete_schedule : (s.complete p r).schedule = s.schedule := by cases p <;> rfl
@[simp] theorem State.complete_drawn : (s.complete p r).drawn = s.drawn := by cases p <;> rfl
@[simp] theorem State.complete_c_portC : (s.complete .c r).portC = s.portC.complete r := rfl
@[simp] theorem State.complete_c_portW : (s.complete .c r).portW = s.portW := rfl
@[simp] theorem State.complete_c_portE : (s.complete .c r).portE = s.portE := rfl
@[simp] theorem State.complete_c_portR : (s.complete .c r).portR = s.portR := rfl
@[simp] theorem State.complete_w_portC : (s.complete .w r).portC = s.portC := rfl
@[simp] theorem State.complete_w_portW : (s.complete .w r).portW = s.portW.complete r := rfl
@[simp] theorem State.complete_w_portE : (s.complete .w r).portE = s.portE := rfl
@[simp] theorem State.complete_w_portR : (s.complete .w r).portR = s.portR := rfl
@[simp] theorem State.complete_e_portC : (s.complete .e r).portC = s.portC := rfl
@[simp] theorem State.complete_e_portW : (s.complete .e r).portW = s.portW := rfl
@[simp] theorem State.complete_e_portE : (s.complete .e r).portE = s.portE.complete r := rfl
@[simp] theorem State.complete_e_portR : (s.complete .e r).portR = s.portR := rfl
@[simp] theorem State.complete_r_portC : (s.complete .r r).portC = s.portC := rfl
@[simp] theorem State.complete_r_portW : (s.complete .r r).portW = s.portW := rfl
@[simp] theorem State.complete_r_portE : (s.complete .r r).portE = s.portE := rfl
@[simp] theorem State.complete_r_portR : (s.complete .r r).portR = s.portR.complete r := rfl
@[simp] theorem State.hold_params : (s.hold p i).params = s.params := by cases p <;> rfl
@[simp] theorem State.hold_u1 : (s.hold p i).u1 = s.u1 := by cases p <;> rfl
@[simp] theorem State.hold_u2 : (s.hold p i).u2 = s.u2 := by cases p <;> rfl
@[simp] theorem State.hold_u3 : (s.hold p i).u3 = s.u3 := by cases p <;> rfl
@[simp] theorem State.hold_env : (s.hold p i).env = s.env := by cases p <;> rfl
@[simp] theorem State.hold_schedule : (s.hold p i).schedule = s.schedule := by cases p <;> rfl
@[simp] theorem State.hold_drawn : (s.hold p i).drawn = s.drawn := by cases p <;> rfl
@[simp] theorem State.hold_c_portC : (s.hold .c i).portC = s.portC.hold i := rfl
@[simp] theorem State.hold_c_portW : (s.hold .c i).portW = s.portW := rfl
@[simp] theorem State.hold_c_portE : (s.hold .c i).portE = s.portE := rfl
@[simp] theorem State.hold_c_portR : (s.hold .c i).portR = s.portR := rfl
@[simp] theorem State.hold_w_portC : (s.hold .w i).portC = s.portC := rfl
@[simp] theorem State.hold_w_portW : (s.hold .w i).portW = s.portW.hold i := rfl
@[simp] theorem State.hold_w_portE : (s.hold .w i).portE = s.portE := rfl
@[simp] theorem State.hold_w_portR : (s.hold .w i).portR = s.portR := rfl
@[simp] theorem State.hold_e_portC : (s.hold .e i).portC = s.portC := rfl
@[simp] theorem State.hold_e_portW : (s.hold .e i).portW = s.portW := rfl
@[simp] theorem State.hold_e_portE : (s.hold .e i).portE = s.portE.hold i := rfl
@[simp] theorem State.hold_e_portR : (s.hold .e i).portR = s.portR := rfl
@[simp] theorem State.hold_r_portC : (s.hold .r i).portC = s.portC := rfl
@[simp] theorem State.hold_r_portW : (s.hold .r i).portW = s.portW := rfl
@[simp] theorem State.hold_r_portE : (s.hold .r i).portE = s.portE := rfl
@[simp] theorem State.hold_r_portR : (s.hold .r i).portR = s.portR.hold i := rfl

/-- A refusal is a completion with status `ERR` (60_exceptions.md R251). -/
@[simp] theorem State.refuse_eq_complete : s.refuse p c = s.complete p (.err c) := rfl

/-- What every port has answered after one port completes. -/
theorem State.complete_outOf (q : PortId) :
    (s.complete p r).outOf q = if q = p then s.outOf q ++ [r] else s.outOf q := by
  cases p <;> cases q <;> simp [State.outOf]

/-- What every port holds after one port completes. -/
theorem State.complete_heldOn (q : PortId) :
    (s.complete p r).heldOn q = if q = p then none else s.heldOn q := by
  cases p <;> cases q <;> simp [State.heldOn]

/-- A hold answers nothing on any port. -/
@[simp] theorem State.hold_outOf (q : PortId) : (s.hold p i).outOf q = s.outOf q := by
  cases p <;> cases q <;> simp [State.outOf]

/-- What every port holds after one port holds a request. -/
theorem State.hold_heldOn (q : PortId) :
    (s.hold p i).heldOn q = if q = p then some i else s.heldOn q := by
  cases p <;> cases q <;> simp [State.heldOn]

end Requests

/-! ## The units -/

section Units

variable (u1 : U1) (u2 : U2) (u3 : U3) (b : Block) (n : BitVec 7) (f : Frame)

@[simp] theorem U1.crc32f_crc : (u1.crc32f b).crc = crcAccumulate b := rfl
@[simp] theorem U1.crc32f_cidx : (u1.crc32f b).cidx = 12 := rfl
@[simp] theorem U1.crc32f_blk : (u1.crc32f b).blk = b := rfl
@[simp] theorem U1.crc32f_busy : (u1.crc32f b).busy = u1.busy := rfl
@[simp] theorem U1.crcsign_crc : (u1.crcsign b).crc = crcAccumulate b := rfl
@[simp] theorem U1.crcsign_cidx : (u1.crcsign b).cidx = 12 := rfl
@[simp] theorem U1.crcsign_blk : (u1.crcsign b).blk = signBlock b := rfl
@[simp] theorem U1.crcsign_busy : (u1.crcsign b).busy = u1.busy := rfl
@[simp] theorem U2.csum_sum : (u2.csum n f).sum = additiveChecksum f n.toNat := rfl
@[simp] theorem U2.csum_sidx : (u2.csum n f).sidx = n := rfl
@[simp] theorem U2.csum_slen : (u2.csum n f).slen = n := rfl
@[simp] theorem U2.csum_frm : (u2.csum n f).frm = f := rfl
@[simp] theorem U2.csum_busy : (u2.csum n f).busy = u2.busy := rfl
@[simp] theorem U2.csign_sum : (u2.csign n f).sum = additiveChecksum f n.toNat := rfl
@[simp] theorem U2.csign_sidx : (u2.csign n f).sidx = n := rfl
@[simp] theorem U2.csign_slen : (u2.csign n f).slen = n := rfl
@[simp] theorem U2.csign_frm : (u2.csign n f).frm = signFrame f n.toNat := rfl
@[simp] theorem U2.csign_busy : (u2.csign n f).busy = u2.busy := rfl
@[simp] theorem U3.pushR_awake : (u3.pushR f).awake = u3.awake := rfl
@[simp] theorem U3.pushR_rq : (u3.pushR f).rq = u3.rq ++ [f] := rfl
@[simp] theorem U3.pushR_nq : (u3.pushR f).nq = u3.nq := rfl
@[simp] theorem U3.pushR_pstate : (u3.pushR f).pstate = u3.pstate := rfl
@[simp] theorem U3.pushR_bcnt : (u3.pushR f).bcnt = u3.bcnt := rfl
@[simp] theorem U3.pushN_awake : (u3.pushN f).awake = u3.awake := rfl
@[simp] theorem U3.pushN_rq : (u3.pushN f).rq = u3.rq := rfl
@[simp] theorem U3.pushN_nq : (u3.pushN f).nq = u3.nq ++ [f] := rfl
@[simp] theorem U3.pushN_pstate : (u3.pushN f).pstate = u3.pstate := rfl
@[simp] theorem U3.pushN_bcnt : (u3.pushN f).bcnt = u3.bcnt := rfl
@[simp] theorem U3.wakeUp_awake : u3.wakeUp.awake = true := rfl
@[simp] theorem U3.wakeUp_rq : u3.wakeUp.rq = u3.rq := rfl
@[simp] theorem U3.wakeUp_nq : u3.wakeUp.nq = u3.nq := rfl
@[simp] theorem U3.wakeUp_pstate : u3.wakeUp.pstate = u3.pstate := rfl
@[simp] theorem U3.wakeUp_bcnt : u3.wakeUp.bcnt = u3.bcnt := rfl
@[simp] theorem U3.pollAccept_awake : u3.pollAccept.awake = u3.awake := rfl
@[simp] theorem U3.pollAccept_rq : u3.pollAccept.rq = u3.rq := rfl
@[simp] theorem U3.pollAccept_nq : u3.pollAccept.nq = u3.nq := rfl
@[simp] theorem U3.pollAccept_pstate : u3.pollAccept.pstate = .pending := rfl
@[simp] theorem U3.pollAccept_bcnt : u3.pollAccept.bcnt = 0 := rfl

end Units

/-! ## The clients' updates -/

section Clients

variable (s : State) (f : Frame) (n : Nat) (x : ClientResult)

@[simp] theorem State.clientSign_params : (s.clientSign f n).params = s.params := rfl
@[simp] theorem State.clientSign_u1 : (s.clientSign f n).u1 = s.u1 := rfl
@[simp] theorem State.clientSign_u2 : (s.clientSign f n).u2 = s.u2.csign (BitVec.ofNat 7 n) f := rfl
@[simp] theorem State.clientSign_u3 : (s.clientSign f n).u3 = s.u3 := rfl
@[simp] theorem State.clientSign_portC : (s.clientSign f n).portC = s.portC.emit (.ok (.frame (signFrame f n))) := rfl
@[simp] theorem State.clientSign_portW : (s.clientSign f n).portW = s.portW := rfl
@[simp] theorem State.clientSign_portE : (s.clientSign f n).portE = s.portE := rfl
@[simp] theorem State.clientSign_portR : (s.clientSign f n).portR = s.portR := rfl
@[simp] theorem State.clientSign_env : (s.clientSign f n).env = s.env := rfl
@[simp] theorem State.clientSign_schedule : (s.clientSign f n).schedule = s.schedule := rfl
@[simp] theorem State.clientSign_drawn : (s.clientSign f n).drawn = s.drawn := rfl

@[simp] theorem State.clientWake_params : s.clientWake.params = s.params := rfl
@[simp] theorem State.clientWake_u1 : s.clientWake.u1 = s.u1 := rfl
@[simp] theorem State.clientWake_u2 : s.clientWake.u2 = s.u2 := rfl
@[simp] theorem State.clientWake_u3 : s.clientWake.u3 = s.u3.wakeUp := rfl
@[simp] theorem State.clientWake_portC : s.clientWake.portC = s.portC := rfl
@[simp] theorem State.clientWake_portW : s.clientWake.portW = s.portW.emit (.ok .none) := rfl
@[simp] theorem State.clientWake_portE : s.clientWake.portE = s.portE := rfl
@[simp] theorem State.clientWake_portR : s.clientWake.portR = s.portR := rfl
@[simp] theorem State.clientWake_env : s.clientWake.env = s.env := rfl
@[simp] theorem State.clientWake_schedule : s.clientWake.schedule = s.schedule := rfl
@[simp] theorem State.clientWake_drawn : s.clientWake.drawn = s.drawn := rfl

@[simp] theorem State.report_params : (s.report x).params = s.params := rfl
@[simp] theorem State.report_u1 : (s.report x).u1 = s.u1 := rfl
@[simp] theorem State.report_u2 : (s.report x).u2 = s.u2 := rfl
@[simp] theorem State.report_u3 : (s.report x).u3 = s.u3 := rfl
@[simp] theorem State.report_portC : (s.report x).portC = s.portC := rfl
@[simp] theorem State.report_portW : (s.report x).portW = s.portW := rfl
@[simp] theorem State.report_portE : (s.report x).portE = s.portE := rfl
@[simp] theorem State.report_portR : (s.report x).portR = s.portR := rfl
@[simp] theorem State.report_env : (s.report x).env = { s.env with results := s.env.results ++ [x] } := rfl
@[simp] theorem State.report_schedule : (s.report x).schedule = s.schedule := rfl
@[simp] theorem State.report_drawn : (s.report x).drawn = s.drawn := rfl

@[simp] theorem State.assertReset_params : s.assertReset.params = s.params := rfl
@[simp] theorem State.assertReset_u1 : s.assertReset.u1 = U1.afterReset (Config.freeBlock s.drawn) := rfl
@[simp] theorem State.assertReset_u2 : s.assertReset.u2 = U2.afterReset (Config.freeFrame s.drawn) := rfl
@[simp] theorem State.assertReset_u3 : s.assertReset.u3 = U3.afterReset := rfl
@[simp] theorem State.assertReset_portC : s.assertReset.portC = { s.portC with held := none } := rfl
@[simp] theorem State.assertReset_portW : s.assertReset.portW = { s.portW with held := none } := rfl
@[simp] theorem State.assertReset_portE : s.assertReset.portE = { s.portE with held := none } := rfl
@[simp] theorem State.assertReset_portR : s.assertReset.portR = { s.portR with held := none } := rfl
@[simp] theorem State.assertReset_env : s.assertReset.env = { s.env with region := .free } := rfl
@[simp] theorem State.assertReset_schedule : s.assertReset.schedule = s.schedule := rfl
@[simp] theorem State.assertReset_drawn : s.assertReset.drawn = s.drawn + 1 := rfl

end Clients

/-! ## The environment -/

section Environment

variable (e : Env) (i : Fin 8) (sl : Slot)

@[simp] theorem Env.setSlot_slots : (e.setSlot i sl).slots = e.slots.set i sl := rfl
@[simp] theorem Env.setSlot_files : (e.setSlot i sl).files = e.files := rfl
@[simp] theorem Env.setSlot_region : (e.setSlot i sl).region = e.region := rfl
@[simp] theorem Env.setSlot_results : (e.setSlot i sl).results = e.results := rfl

end Environment

end Sys2Proof.Machine
end

