-- ==== Sys2Proof/Laws/Ops.lean ====
section
/-!
SUPPORT. One lemma per shared operation that says everything it can do; proofs cite these and do not unfold the
operations.
-/

namespace Sys2Proof.Machine

/-! ## Bytes and buffers -/

/-- The bytes of a packed buffer. -/
theorem packBytes_toList (n : Nat) (l : List Byte) :
    (packBytes n l).toList = (l ++ List.replicate n 0).take n := by
  simp [packBytes]

/-- A byte string of the right length is packed as it is. -/
theorem packBytes_toList_of_length {n : Nat} {l : List Byte} (h : l.length = n) :
    (packBytes n l).toList = l := by
  rw [packBytes_toList, ← h, List.take_left']
  rfl

/-- A byte string that is not too long is packed and filled up with zero bytes. -/
theorem packBytes_toList_of_le {n : Nat} {l : List Byte} (h : l.length ≤ n) :
    (packBytes n l).toList = l ++ List.replicate (n - l.length) 0 := by
  rw [packBytes_toList, List.take_append, List.take_of_length_le h, List.take_replicate,
    Nat.min_eq_left (Nat.sub_le _ _)]

/-- Packing the bytes of a buffer gives the buffer back. -/
@[simp] theorem packBytes_of_toList {n : Nat} (v : Vector Byte n) : packBytes n v.toList = v := by
  apply Vector.toList_inj.1
  exact packBytes_toList_of_length (by simp)

/-- Each byte of a packed buffer. -/
theorem packBytes_getElem (n : Nat) (l : List Byte) (i : Nat) (h : i < n) :
    (packBytes n l)[i] = l.getD i 0 := by
  rw [← Vector.getElem_toList (by simpa using h)]
  simp only [packBytes_toList, List.getElem_take, List.getElem_append, List.getElem_replicate]
  split <;> rename_i h' <;> simp [h']

/-! ## A new figure -/

/-- The layout of every Builder is one of those 30_encoding.md R110 lists. -/
theorem Builder.layout_listed (b : Builder) : descriptorListed b.layout.toList = true := by
  unfold Builder.layout
  split
  · assumption
  · decide

/-- Every layout that R110 lists is that of some Builder. -/
theorem Builder.layout_of_listed (b : Builder) (h : descriptorListed b.places.toList = true) :
    b.layout = b.places := by
  simp [Builder.layout, h]

/-- Bytes 0 to 11 of a built descriptor are what the layout places there (30_encoding.md R110). -/
theorem builtDescriptor_getElem (b : Builder) (random : Byte) (identityType identityId : List Byte) (k : Nat)
    (h : k < 12) :
    (builtDescriptor b random identityType identityId)[k] =
      descriptorValue random identityType identityId b.layout[k] := by
  unfold builtDescriptor
  rw [packBytes_getElem _ _ k (by omega)]
  simp [h]

/-- The bytes of a built image, part by part (43_client_sequences.md R219). -/
theorem builtImage_toList (b : Builder) (serial : Vector Byte 5) (random : Byte) (fresh : Image)
    (identityType identityId : List Byte) :
    (builtImage b serial random fresh identityType identityId).toList =
      [b.byte0] ++ serial.toList ++ [b.byte6, b.byte7, b.byte8, b.byte9, b.byte10] ++ (fresh.toList.drop 11).take 5 ++
        (builtDescriptor b random identityType identityId).toList ++ fresh.toList.drop 32 := by
  unfold builtImage
  exact packBytes_toList_of_length (by simp)

/-- The descriptor of a built image is the built descriptor (R219). -/
theorem descriptorOf_builtImage (b : Builder) (serial : Vector Byte 5) (random : Byte) (fresh : Image)
    (identityType identityId : List Byte) :
    descriptorOf (builtImage b serial random fresh identityType identityId) =
      builtDescriptor b random identityType identityId := by
  have hs : serial.toList.drop 15 = [] := List.drop_eq_nil_of_le (by simp)
  apply Vector.toList_inj.1
  rw [descriptorOf, sliceBytes, builtImage_toList, packBytes_toList]
  simp [List.drop_append, hs]

/-! ## The checksum -/

/-- Adding bytes one after another, modulo 256 each time, adds their integer sum (41_checksum.md R162, R165). -/
theorem foldl_add_bytes (l : List Byte) (a : Byte) : l.foldl (· + ·) a = a + BitVec.ofNat 8 (byteSum l) := by
  induction l generalizing a with
  | nil => simp [byteSum]
  | cons x xs ih =>
    rw [List.foldl_cons, ih]
    simp only [byteSum, List.map_cons, List.sum_cons, BitVec.ofNat_add, BitVec.ofNat_toNat, BitVec.setWidth_eq]
    rw [BitVec.add_assoc]

/-- The checksum of a frame by the integer sum of its prefix. -/
theorem additiveChecksum_eq (f : Frame) (n : Nat) :
    additiveChecksum f n = BitVec.ofNat 8 (byteSum (f.toList.take n)) := by
  simp [additiveChecksum, foldl_add_bytes]

/-- What a client's CSIGN makes of a frame that holds only its used bytes (30_encoding.md R105, R107, R109). -/
theorem signFrame_packBytes (used : List Byte) (h : used.length ≤ 63) :
    (signFrame (packBytes 64 used) used.length).toList = signedBytes used := by
  have hp : (packBytes 64 used).toList = used ++ List.replicate (64 - used.length) 0 :=
    packBytes_toList_of_le (by omega)
  have hs : additiveChecksum (packBytes 64 used) used.length = BitVec.ofNat 8 (byteSum used) := by
    rw [additiveChecksum_eq, hp]
    simp
  have hlen : 64 - used.length = 63 - used.length + 1 := by omega
  unfold signFrame
  rw [hs, Vector.toList_setIfInBounds, hp, hlen, List.replicate_succ, List.set_append_right _ _ (Nat.le_refl _)]
  simp [signedBytes]

/-! ## The queues -/

/-- A queue has room exactly when one more frame fits its depth (10_state.md R40). -/
theorem hasRoom_iff (d : Depth) (q : List Frame) : hasRoom d q = d.fits (q.length + 1) := by
  cases q <;> cases d <;> simp [hasRoom, Depth.fits]

/-- A full queue has no room (10_state.md R40). -/
theorem hasRoom_of_full {d : Depth} {q : List Frame} (h : d.capacity? = some q.length) :
    hasRoom d q = false := by
  cases d with
  | unbounded => simp [Depth.capacity?] at h
  | frames extra => simp_all [hasRoom_iff, Depth.fits, Depth.capacity?]

/-- Everything PUSHR can do: append and complete, or hold (42_mux.md R181, R182). -/
theorem State.pushReply_cases (s : State) (n : BitVec 7) (f : Frame) :
    (hasRoom s.params.rqDepth s.u3.rq = true ∧
      s.pushReply n f = ({ s with u3 := s.u3.pushR f } : State).complete .w (.ok .none)) ∨
    (hasRoom s.params.rqDepth s.u3.rq = false ∧ s.pushReply n f = s.hold .w (.pushr n f)) := by
  unfold State.pushReply
  cases hasRoom s.params.rqDepth s.u3.rq <;> simp

/-- Everything PUSHN can do: append and complete, or hold (42_mux.md R182, R184). -/
theorem State.pushNotification_cases (s : State) (n : BitVec 7) (f : Frame) :
    (hasRoom s.params.nqDepth s.u3.nq = true ∧
      s.pushNotification n f = ({ s with u3 := s.u3.pushN f } : State).complete .e (.ok .none)) ∨
    (hasRoom s.params.nqDepth s.u3.nq = false ∧ s.pushNotification n f = s.hold .e (.pushn n f)) := by
  unfold State.pushNotification
  cases hasRoom s.params.nqDepth s.u3.nq <;> simp

/-- Everything the push that ends a command can do (43_client_sequences.md R211). -/
theorem State.reply_cases (s : State) (f : Frame) :
    (hasRoom s.params.rqDepth s.u3.rq = true ∧
      s.reply f = ({ s with u3 := s.u3.pushR f } : State).complete .w (.ok .none)) ∨
    (hasRoom s.params.rqDepth s.u3.rq = false ∧
      s.reply f = { s.hold .w (.pushr 0 f) with env := { s.env with region := .writer } }) := by
  rcases s.pushReply_cases 0 f with ⟨h, e⟩ | ⟨h, e⟩
  · exact .inl ⟨h, by simp only [State.reply]; rw [e]; rfl⟩
  · exact .inr ⟨h, by simp only [State.reply]; rw [e]; rfl⟩

/-- Everything a delivery can take: the oldest notification once awake, else the oldest reply (42_mux.md R191). -/
theorem U3.pollDeliver_cases (u : U3) :
    (∃ f rest, u.awake = true ∧ u.nq = f :: rest ∧
      u.pollDeliver = some (f, { u with nq := rest, pstate := .idle })) ∨
    (∃ f rest, (u.awake = false ∨ u.nq = []) ∧ u.rq = f :: rest ∧
      u.pollDeliver = some (f, { u with rq := rest, pstate := .idle })) ∨
    ((u.awake = false ∨ u.nq = []) ∧ u.rq = [] ∧ u.pollDeliver = none) := by
  rcases u with ⟨_ | _, rq, nq, ps, bc⟩ <;> cases nq <;> cases rq <;> simp [U3.pollDeliver]

/-- Everything one arbitration attempt can do (42_mux.md R191, R194). -/
theorem State.deliver_cases (s : State) :
    (s.u3.pstate = .idle ∧ s.deliver = s) ∨
    (s.u3.pstate = .pending ∧ ∃ f u, s.u3.pollDeliver = some (f, u) ∧
      s.deliver = { s with u3 := u, portR := s.portR.emit (.ok (.frame f)) }) ∨
    (s.u3.pstate = .pending ∧ s.u3.pollDeliver = none ∧
      s.deliver = { s with u3 := { s.u3 with bcnt := 0 } }) := by
  unfold State.deliver
  rcases h : s.u3.pstate with _ | _
  · simp
  · rcases h' : s.u3.pollDeliver with _ | ⟨f, u⟩ <;> simp

/-- Everything one tick can do (42_mux.md R194). -/
theorem State.backoffTick_cases (s : State) :
    s.backoffTick = s ∨
    (s.u3.pstate = .pending ∧ s.u3.deliverable = false ∧ s.u3.bcnt < s.params.backoffTicks ∧
      s.backoffTick = { s with u3 := { s.u3 with bcnt := s.u3.bcnt + 1 } }) := by
  unfold State.backoffTick
  split
  · rename_i h
    simp only [Bool.and_eq_true, decide_eq_true_eq, Bool.not_eq_true', U3.pollPending] at h
    exact .inr ⟨h.1.1, h.1.2, h.2, rfl⟩
  · exact .inl rfl

/-! ## Client sequences -/

/-- Everything a client sequence that signs can do: run its body, or hold (60_exceptions.md R255). -/
theorem clientSequence_cases (i : Instr) (s : State) (body : Host.Outcome State Fault Refusal) :
    (s.u2Free = true ∧ clientSequence i s body = body) ∨
    (s.u2Free = false ∧ clientSequence i s body = .next (s.hold .w i)) := by
  unfold clientSequence
  cases s.u2Free <;> simp

/-- U2 and port C are free for a client's CSIGN (10_state.md R52, R55). -/
theorem State.u2Free_iff (s : State) : s.u2Free = true ↔ s.u2.busy = false ∧ s.portC.held = none := by
  simp [State.u2Free]

/-- Everything a notification can do: nothing while it is not due, else sign and push, or sign and hold
(43_client_sequences.md R218, 70_reset_and_hazards.md R295). -/
theorem State.notify_cases (s : State) (added : Bool) (uid : Uid) :
    (s.notifies = false ∧ s.notify added uid = s) ∨
    (s.notifies = true ∧
      ∃ u f, u = s.clientSign f notificationOffset ∧ f = notificationFrame s.params added uid ∧
      ((hasRoom s.params.nqDepth s.u3.nq = true ∧
        s.notify added uid =
          ({ u with u3 := u.u3.pushN (signFrame f notificationOffset) } : State).complete .e (.ok .none)) ∨
       (hasRoom s.params.nqDepth s.u3.nq = false ∧
        s.notify added uid =
          { u.hold .e (.pushn 0 (signFrame f notificationOffset)) with
            env := if s.params.eventKeepsRegion then { s.env with region := .event } else s.env }))) := by
  unfold State.notify
  cases hdue : s.notifies
  · exact .inl ⟨rfl, by simp⟩
  · refine .inr ⟨rfl, _, _, rfl, rfl, ?_⟩
    rcases (s.clientSign (notificationFrame s.params added uid) notificationOffset).pushNotification_cases 0
      (signFrame (notificationFrame s.params added uid) notificationOffset) with ⟨hroom, e⟩ | ⟨hroom, e⟩
    · refine .inl ⟨hroom, ?_⟩
      simp only [if_true]
      rw [e]
      rfl
    · refine .inr ⟨hroom, ?_⟩
      simp only [if_true]
      rw [e]
      cases s.params.eventKeepsRegion <;> rfl

/-- Everything a Write Block can do to the machine: nothing on a miss, or new bytes in one present slot
(43_client_sequences.md R230). -/
theorem State.writeBlock_cases (s : State) (uid : Uid) (sector block : Byte) (payload : Block) :
    ((s.env.findByUid s.params uid = none ∨ blockInRange sector block = false) ∧
      s.writeBlock uid sector block payload = s) ∨
    (∃ i, s.env.findByUid s.params uid = some i ∧ blockInRange sector block = true ∧
      ∃ uid' k, (touchesUid sector block = false → uid' = s.env.slots[i].uid ∧ k = s.drawn) ∧
        (uid' = s.env.slots[i].uid ∨ s.env.uidHeldElsewhere s.params i uid' = false) ∧
      s.writeBlock uid sector block payload =
        { s with
          env := s.env.setSlot i
            { s.env.slots[i] with
              data := putBlock s.env.slots[i].data (blockOffset sector block) payload
              uid := uid' }
          drawn := k }) := by
  unfold State.writeBlock
  cases hf : s.env.findByUid s.params uid with
  | none => exact .inl ⟨.inl rfl, rfl⟩
  | some i =>
    cases hr : blockInRange sector block with
    | false => exact .inl ⟨.inr rfl, by simp⟩
    | true =>
      refine .inr ⟨i, rfl, rfl, _, _, fun h => ?_, ?_, rfl⟩
      · simp [h]
      · split
        · rename_i hf
          exact .inr (Bool.eq_false_of_not_eq_true' (Bool.and_eq_true_iff.1 hf).2)
        · exact .inl rfl

/-- No other present slot holds the uid (10_state.md R56). -/
theorem Env.uidHeldElsewhere_eq_false {e : Env} {p : Params} {i : Fin 8} {uid : Uid} :
    e.uidHeldElsewhere p i uid = false ↔ ∀ j : Fin 8, j ≠ i → e.occupied p j = true → e.slots[j].uid ≠ uid := by
  simp only [Env.uidHeldElsewhere, List.any_eq_false, slotIndices]
  constructor
  · intro h j hji ho hu
    exact h j (by fin_cases j <;> simp) (by simpa [hji, ho] using hu)
  · intro h j _ hj
    simp only [Bool.and_eq_true, decide_eq_true_eq] at hj
    exact h j hj.1 hj.2.1 hj.2.2

/-! ## Steps -/

/-- A request that is not accepted holds, and nothing else happens (60_exceptions.md R255). -/
theorem exec_of_not_accepts {s : State} {i : Instr} (h : s.accepts i = false) :
    exec i s = .next (s.hold i.port i) := by
  cases i <;> simp only [State.accepts, Bool.or_eq_false_iff, Bool.not_eq_false', decide_eq_false_iff_not,
    reduceCtorEq] at h <;>
    simp_all [exec, execCrc32f, execCrcsign, execCsum, execCsign, execPushr, execPushn, execPoll, execCmdWake,
      execCmdAckC0, execCmdAckC3, execCmdList, execCmdRead, execCmdWrite, clientSequence, State.pushReply,
      State.pushNotification, U3.pollPending, Instr.port, Op.port]

/-- Everything the block can do by itself: deliver, serve a holding request that is ready, or make an attempt that finds
nothing (42_mux.md R199). -/
theorem State.idleTurn_cases (s : State) :
    (s.idleTurn = .deliver ∧ s.u3.pstate = .pending ∧ s.u3.deliverable = true) ∨
    ((s.u3.pstate = .idle ∨ s.u3.deliverable = false) ∧
      ((s.idleTurn = .event ∧ s.ready .e s.portE.held = true) ∨
       (s.ready .e s.portE.held = false ∧
        ((s.idleTurn = .writer ∧ s.ready .w s.portW.held = true) ∨
         (s.ready .w s.portW.held = false ∧
          ((s.idleTurn = .compute ∧ s.ready .c s.portC.held = true) ∨
           (s.ready .c s.portC.held = false ∧
            ((s.idleTurn = .reader ∧ s.ready .r s.portR.held = true) ∨
             (s.ready .r s.portR.held = false ∧ s.idleTurn = .deliver)))))))))  := by
  unfold State.idleTurn U3.pollPending
  cases s.u3.pstate <;> cases s.u3.deliverable <;> cases s.ready .e s.portE.held <;>
    cases s.ready .w s.portW.held <;> cases s.ready .c s.portC.held <;> cases s.ready .r s.portR.held <;> simp

/-- A mapped outcome is a next state exactly when the outcome was one. -/
theorem mapNext_eq_next {f : State → State} {o : Host.Outcome State Fault Refusal} {t : State} :
    mapNext f o = .next t ↔ ∃ u, o = .next u ∧ f u = t := by
  cases o <;> simp [mapNext]

/-- Everything a presented request can do: be refused by code or by port, be inexpressible, or be run
(60_exceptions.md R254). -/
theorem serveRequest_cases (p : PortId) (bytes : List Byte) (s : State) :
    ((∃ op, decodeBytes .request bytes = .error (.reservedOp op)) ∧
      serveRequest p bytes s = .next (s.refuse p .badOp)) ∨
    (serveRequest p bytes s = .refused .inexpressibleRequest) ∨
    (∃ i, decodeBytes .request bytes = .ok i ∧ i.port ≠ p ∧ serveRequest p bytes s = .next (s.refuse p .port)) ∨
    (∃ i, decodeBytes .request bytes = .ok i ∧ i.port = p ∧ serveRequest p bytes s = exec i s) := by
  unfold serveRequest
  cases h : decodeBytes .request bytes with
  | error e => cases e <;> simp
  | ok i => by_cases hp : i.port = p <;> simp [hp]

/-! ## The backing files -/

/-- Writing a backing file keeps the handles rising, and the file written is the only new handle. -/
theorem putFile_keeps_order (handle : Nat) (img : Image) (files : List (Nat × Image)) (h : filesRise files) :
    filesRise (putFile handle img files) ∧
      ∀ c ∈ putFile handle img files, c.1 = handle ∨ c ∈ files := by
  induction files with
  | nil => simp [putFile, filesRise]
  | cons c rest ih =>
    obtain ⟨hd, tl⟩ := c
    have hrest : filesRise rest := List.Pairwise.of_cons h
    have hlt : ∀ a ∈ rest, hd < a.1 := (List.pairwise_cons.1 h).1
    obtain ⟨ihr, ihm⟩ := ih hrest
    unfold putFile
    split
    · rename_i hh
      refine ⟨List.pairwise_cons.2 ⟨?_, h⟩, fun a ha => (List.mem_cons.1 ha).imp_left (congrArg Prod.fst)⟩
      intro a ha
      rcases List.mem_cons.1 ha with rfl | ha
      · exact hh
      · exact Nat.lt_trans hh (hlt a ha)
    · split
      · rename_i _ hh
        subst hh
        refine ⟨List.pairwise_cons.2 ⟨hlt, hrest⟩, ?_⟩
        intro a ha
        rcases List.mem_cons.1 ha with rfl | ha
        · exact .inl rfl
        · exact .inr (List.mem_cons_of_mem _ ha)
      · rename_i h1 h2
        refine ⟨List.pairwise_cons.2 ⟨?_, ihr⟩, ?_⟩
        · intro a ha
          rcases ihm a ha with he | hm
          · show hd < a.1
            omega
          · exact hlt a hm
        · intro a ha
          rcases List.mem_cons.1 ha with rfl | ha
          · exact .inr List.mem_cons_self
          · rcases ihm a ha with he | hm
            · exact .inl he
            · exact .inr (List.mem_cons_of_mem _ hm)

/-- A backing file reads as written. -/
theorem getFile_putFile (handle : Nat) (img : Image) (files : List (Nat × Image)) :
    getFile handle (putFile handle img files) = some img := by
  induction files with
  | nil => simp [putFile, getFile]
  | cons c rest ih =>
    obtain ⟨hd, tl⟩ := c
    unfold putFile
    split
    · simp [getFile]
    · split
      · simp [getFile]
      · rename_i h1 h2
        simp only [getFile, List.find?_cons] at ih ⊢
        rw [show decide (hd = handle) = false from decide_eq_false (fun h => h2 h.symm)]
        exact ih

/-! ## The registry -/

/-- The slot a uid search finds is occupied and holds that uid (43_client_sequences.md R228). -/
theorem Env.findByUid_some {e : Env} {p : Params} {uid : Uid} {i : Fin 8} (h : e.findByUid p uid = some i) :
    e.slots[i].present = true ∧ slotExists p i = true ∧ e.slots[i].uid = uid := by
  have := List.find?_some h
  simpa [Env.occupied, and_assoc] using this

/-- The slot an allocation takes exists, is free, and every lower slot is occupied (43_client_sequences.md R226). -/
theorem Env.freeSlot_some {e : Env} {p : Params} {i : Fin 8} (h : e.freeSlot p = some i) :
    e.slots[i].present = false ∧ slotExists p i = true := by
  have := List.find?_some h
  simpa using this

/-- Slot `i` exists exactly when it is below `NUM_SLOTS` (00_scope.md R12). -/
theorem slotExists_iff (p : Params) (i : Fin 8) : slotExists p i = true ↔ i.val < p.numSlots := by
  have hi := i.isLt
  unfold slotExists Params.numSlots
  cases p.eightSlots <;> simp

/-- The occupied slots in index order are the present slots of the claims (10_state.md R56). -/
theorem filter_occupied (s : State) :
    slotIndices.filter (fun i => s.env.occupied s.params i) = s.presentSlots := by
  rw [State.presentSlots, show slotIndices = List.finRange 8 by decide]
  apply List.filter_congr
  intro i _
  simp only [Env.occupied]
  congr 1
  rw [Bool.eq_iff_iff, slotExists_iff]
  simp

end Sys2Proof.Machine
end

