-- ==== Sys2Proof/Laws/PerInstr.lean ====
section
/-!
SUPPORT. A statement about every instruction, one lemma per constructor: how many bytes an instruction is written as.
-/

namespace Sys2Proof.Laws.EncodedSize

/-- The size of the data operand of an instruction's request (30_encoding.md R101), or 62 for a command, whose frame
has 64 bytes. -/
def operandBytes : Instr → Nat
  | .crc32f _ _ => Op.operandLen .crc32f
  | .crcsign _ _ => Op.operandLen .crcsign
  | .csum _ _ => Op.operandLen .csum
  | .csign _ _ => Op.operandLen .csign
  | .pushr _ _ => Op.operandLen .pushr
  | .pushn _ _ => Op.operandLen .pushn
  | .wake _ => Op.operandLen .wake
  | .poll _ => Op.operandLen .poll
  | .cmdWake _ => 62
  | .cmdAckC0 _ => 62
  | .cmdAckC3 _ => 62
  | .cmdList _ => 62
  | .cmdRead _ _ _ _ => 62
  | .cmdWrite _ _ _ _ _ => 62
  | .cmdUnknown _ => 62

/-- An instruction is written as two bytes more than its operand. -/
def Statement (i : Instr) : Prop := (encode i).length = operandBytes i + 2

/-- A Command Frame has 64 bytes (R104). -/
theorem encodeCommand_length (code : Byte) (fields : List Byte) : (encodeCommand code fields).length = 64 := by
  simp [encodeCommand]

/-- A request has a two-byte header before its operand. -/
theorem encodeRequest_length (o : Op) (n : BitVec 7) (data : List Byte) :
    (encodeRequest o n data).length = data.length + 2 := by
  simp [encodeRequest]

theorem crc32f (n : BitVec 7) (b : Block) : Statement (.crc32f n b) := by
  simp [Statement, encode, operandBytes, encodeRequest_length, Op.operandLen]

theorem crcsign (n : BitVec 7) (b : Block) : Statement (.crcsign n b) := by
  simp [Statement, encode, operandBytes, encodeRequest_length, Op.operandLen]

theorem csum (n : BitVec 7) (f : Frame) : Statement (.csum n f) := by
  simp [Statement, encode, operandBytes, encodeRequest_length, Op.operandLen]

theorem csign (n : BitVec 7) (f : Frame) : Statement (.csign n f) := by
  simp [Statement, encode, operandBytes, encodeRequest_length, Op.operandLen]

theorem pushr (n : BitVec 7) (f : Frame) : Statement (.pushr n f) := by
  simp [Statement, encode, operandBytes, encodeRequest_length, Op.operandLen]

theorem pushn (n : BitVec 7) (f : Frame) : Statement (.pushn n f) := by
  simp [Statement, encode, operandBytes, encodeRequest_length, Op.operandLen]

theorem wake (n : BitVec 7) : Statement (.wake n) := by
  simp [Statement, encode, operandBytes, encodeRequest_length, Op.operandLen]

theorem poll (n : BitVec 7) : Statement (.poll n) := by
  simp [Statement, encode, operandBytes, encodeRequest_length, Op.operandLen]

theorem cmdWake (seq : Byte) : Statement (.cmdWake seq) := encodeCommand_length _ _

theorem cmdAckC0 (seq : Byte) : Statement (.cmdAckC0 seq) := encodeCommand_length _ _

theorem cmdAckC3 (seq : Byte) : Statement (.cmdAckC3 seq) := encodeCommand_length _ _

theorem cmdList (seq : Byte) : Statement (.cmdList seq) := encodeCommand_length _ _

theorem cmdRead (seq : Byte) (uid : Uid) (sector block : Byte) : Statement (.cmdRead seq uid sector block) :=
  encodeCommand_length _ _

theorem cmdWrite (seq : Byte) (uid : Uid) (sector block : Byte) (payload : Block) :
    Statement (.cmdWrite seq uid sector block payload) := encodeCommand_length _ _

theorem cmdUnknown (code : Byte) : Statement (.cmdUnknown code) := encodeCommand_length _ _

end Sys2Proof.Laws.EncodedSize
end

