-- ==== Sys2Proof/Tests/Slice0.lean ====
section
/-!
SUPPORT. Tests of the model. Expected values come from the spec: the encodings of 30_encoding.md and the vectors of
95_test_vectors.md under its illustrative parameters. The `witness` theorems show, for each statement with hypotheses,
a concrete state and operands that meet all of them.
-/

namespace Sys2Proof.Tests

open Sys2Proof.Machine

/-! ## Helpers -/

/-- A Builder of the tests: distinct structural bytes, a one-byte type, a two-byte id with its second byte first. The values are
the tests' own, since the spec gives none (93_implementation_defined.md U19). -/
def testBuilder : Builder :=
  { byte0 := 0xD0, byte6 := 0xD6, byte7 := 0xD7, byte8 := 0xD8, byte9 := 0xD9, byte10 := 0xDA
    places := #v[.structural 0xE0, .random, .structural 0xE2, .identityType 0, .separator 0xE4, .identityId 1,
      .identityId 0, .structural 0xE7, .structural 0xE8, .structural 0xE9, .structural 0xEA, .structural 0xEB] }

/-- The illustrative parameters at the head of 95_test_vectors.md; it names none of the Builder. -/
def vectorParams : Params :=
  { rqDepth := .unbounded, nqDepth := .unbounded, backoffExtra := 0, respMarker := 0x55, notifGap := 0,
    subtype0 := 0xA1, subtype1 := 0xA2, wakePayload := [0xE1, 0xE2], listBaseExtra := 0, eightSlots := true,
    notifyWhenAsleep := true, eventKeepsRegion := true, builder := testBuilder }

/-- The machine after reset under the illustrative parameters. -/
def fresh : State := State.resetWith vectorParams

/-- The same with other parameters. -/
def withParams (p : Params) : State := State.resetWith p

/-- A property of the next state; false when there is none. -/
def after (o : Host.Outcome State Fault Refusal) (p : State → Bool) : Bool :=
  match o with
  | .next s => p s
  | .fault _ => false
  | .refused _ => false

/-- A frame from its first bytes. -/
def frameOf (l : List Byte) : Frame := packBytes 64 l

/-- A descriptor block from its bytes. -/
def blockOf (l : List Byte) : Block := packBytes 16 l

/-- The first bytes of the frames or blocks answered on port C. -/
def answersC (s : State) : List (List Byte) :=
  s.portC.out.map fun
    | .ok (.frame f) => f.toList.take 24
    | .ok (.block b) => b.toList
    | _ => []

/-- The ASCII bytes of "123456789012" (V3). -/
def digits : List Byte := [0x31, 0x32, 0x33, 0x34, 0x35, 0x36, 0x37, 0x38, 0x39, 0x30, 0x31, 0x32]

/-- A uid of T-ENV-3. -/
def uidA : Uid := packBytes 7 [1, 2, 3, 4, 5, 6, 7]

/-- The blob of program P4. -/
def blobA : Image :=
  packBytes 320 [1, 2, 3, 4, 5, 6, 7, 0xA0, 0xA1, 0xA2, 0xA3, 0xA4, 0xA5, 0xA6, 0xA7, 0xA8]

/-- A slot that holds the figure of program P4 under a handle. -/
def slotA (handle : Nat) : Slot := { present := true, uid := uidA, data := blobA, handle := some handle }

/-- The machine with the figure of program P4 in slot 0. -/
def oneFigure : State := { fresh with env := fresh.env.setSlot 0 (slotA 9) }

/-- The machine with every slot occupied. -/
def allSlots (p : Params) : State :=
  { withParams p with env := { Env.initial with slots := Vector.ofFn fun i => slotA i.val } }

/-- The machine with its first seven slots occupied. -/
def sevenSlots (p : Params) : State :=
  { withParams p with env := (allSlots p).env.setSlot 7 Slot.empty }

/-! ## Well-formedness: what the check refuses -/

/-- CMD.UNKNOWN with any of the six known codes is ill-formed (30_encoding.md R119). -/
theorem test_wf_refuses_known_codes :
    ([0xB0, 0xC0, 0xC3, 0xD0, 0xD2, 0xD3] : List Byte).all (fun c => !(Instr.cmdUnknown c).wf) = true := by decide

/-- CMD.UNKNOWN with the source's example code is well-formed (R122). -/
theorem test_wf_accepts_unknown_code : (Instr.cmdUnknown 0xFF).wf = true := by decide

/-! ## Decoding: words written out from R100, R101 and R119 -/

theorem test_decode_crc32f :
    decodeTableWord 16 0b00000_0000_0000000 = some (.crc32f 0 (Vector.replicate 16 0)) := by decide
theorem test_decode_crcsign :
    decodeTableWord 16 0b00000_0001_0000000 = some (.crcsign 0 (Vector.replicate 16 0)) := by decide
theorem test_decode_csum :
    decodeTableWord 16 0b00000_0100_1000000 = some (.csum 64 (Vector.replicate 64 0)) := by decide
theorem test_decode_csign :
    decodeTableWord 16 0b00000_0101_0111111 = some (.csign 63 (Vector.replicate 64 0)) := by decide
theorem test_decode_pushr :
    decodeTableWord 16 0b00000_1000_0000000 = some (.pushr 0 (Vector.replicate 64 0)) := by decide
theorem test_decode_pushn :
    decodeTableWord 16 0b00000_1001_1111111 = some (.pushn 127 (Vector.replicate 64 0)) := by decide
theorem test_decode_wake : decodeTableWord 16 0b00000_1010_0000000 = some (.wake 0) := by decide
theorem test_decode_poll : decodeTableWord 16 0b00000_1011_0000001 = some (.poll 1) := by decide
theorem test_decode_cmdWake : decodeTableWord 8 0b1011_0000 = some (.cmdWake 0) := by decide
theorem test_decode_cmdAckC0 : decodeTableWord 8 0b1100_0000 = some (.cmdAckC0 0) := by decide
theorem test_decode_cmdAckC3 : decodeTableWord 8 0b1100_0011 = some (.cmdAckC3 0) := by decide
theorem test_decode_cmdList : decodeTableWord 8 0b1101_0000 = some (.cmdList 0) := by decide
theorem test_decode_cmdRead :
    decodeTableWord 8 0b1101_0010 = some (.cmdRead 0 (Vector.replicate 7 0) 0 0) := by decide
theorem test_decode_cmdWrite :
    decodeTableWord 8 0b1101_0011 = some (.cmdWrite 0 (Vector.replicate 7 0) 0 0 (Vector.replicate 16 0)) := by decide
theorem test_decode_cmdUnknown : decodeTableWord 8 0b1111_1111 = some (.cmdUnknown 0xFF) := by decide

/-- The eight reserved codes decode to nothing (R120). -/
theorem test_decode_refuses_reserved :
    ([0b0010, 0b0011, 0b0110, 0b0111, 0b1100, 0b1101, 0b1110, 0b1111] : List Nat).all
      (fun op => (decodeTableWord 16 (op * 128)).isNone) = true := by decide

/-- The operand fields of a Command Frame (R104, R115): uid at 4, sector at 11, block at 12, payload at 13. -/
theorem test_decode_write_fields :
    decodeCommand (packBytes 64 ([0xEE, 0xEE, 0xD3, 9] ++ [1, 2, 3, 4, 5, 6, 7] ++ [4, 3] ++
      [0x10, 0x11, 0x12, 0x13, 0x14, 0x15, 0x16, 0x17, 0x18, 0x19, 0x1A, 0x1B, 0x1C, 0x1D, 0x1E, 0x1F] ++
      [0xEE])).toList =
    .cmdWrite 9 uidA 4 3 (blockOf [0x10, 0x11, 0x12, 0x13, 0x14, 0x15, 0x16, 0x17, 0x18, 0x19, 0x1A, 0x1B, 0x1C,
      0x1D, 0x1E, 0x1F]) := by decide

/-- The operand of a request stands after its header, first byte first (R114). -/
theorem test_decode_block_operand :
    decodeBytes .request ([0x80, 0x00] ++ digits ++ [0xAA, 0xBB, 0xCC, 0xDD]) =
      .ok (.crcsign 0 (blockOf (digits ++ [0xAA, 0xBB, 0xCC, 0xDD]))) := by decide

/-- A request whose operand has the wrong size is none (20_memory.md R82). -/
theorem test_decode_refuses_short_operand :
    decodeBytes .request ([0x80, 0x00] ++ digits) = .error (.operandSize 16) := by decide

/-- A header has 11 bits (R100). -/
theorem test_decode_refuses_wide_header : decodeBytes .request [0x80, 0x0D] = .error .wideHeader := by decide

/-! ## One step of each instruction -/

/-- T-CRC-2. -/
theorem test_crc32f_digits :
    after (exec (.crc32f 0 (blockOf digits)) fresh) (fun t => decide
      (t.portC.out = [.ok (.crc 0x26E12DF9#32)] ∧ t.u1.crc = 0x26E12DF9#32 ∧ t.u1.cidx = 12)) = true := by decide

/-- T-CRC-8: a zero window with a non-zero tail. -/
theorem test_crc32f_ignores_tail :
    after (exec (.crc32f 127 (blockOf [0, 0, 0, 0, 0, 0, 0, 0, 0, 0, 0, 0, 0xDE, 0xAD, 0xBE, 0xEF])) fresh)
      (fun t => decide (t.portC.out = [.ok (.crc 0)])) = true := by decide

/-- T-CRC-9: the byte order of the stored CRC. -/
theorem test_crcsign_order :
    after (exec (.crcsign 0 (blockOf (digits ++ [0xAA, 0xBB, 0xCC, 0xDD]))) fresh)
      (fun t => decide (answersC t = [digits ++ [0x26, 0xE1, 0x2D, 0xF9]])) = true := by decide

/-- T-CRC-10. -/
theorem test_crcsign_first_byte :
    after (exec (.crcsign 0 (blockOf [1])) fresh)
      (fun t => decide (answersC t = [[1, 0, 0, 0, 0, 0, 0, 0, 0, 0, 0, 0, 0x9B, 0xA5, 0x4C, 0x6F]])) = true := by
  decide

/-- T-SUM-1: the carry is discarded. -/
theorem test_csum_wraps :
    after (exec (.csum 4 (frameOf [0x55, 0x02, 0xC0, 0x01])) fresh) (fun t => decide
      (t.portC.out = [.ok (.sum 0x18)] ∧ t.u2.sum = 0x18 ∧ t.u2.sidx = 4 ∧ t.u2.slen = 4)) = true := by decide

/-- T-SUM-11: `n = 65` is refused with `REF_LEN`. -/
theorem test_csum_refuses_length :
    after (exec (.csum 65 (frameOf [0x55])) fresh) (fun t => decide
      (t.portC.out = [.err .len] ∧ t.u2 = fresh.u2)) = true := by decide

/-- T-SGN-2: the old byte is lost and not summed, the next one is kept. -/
theorem test_csign_keeps_tail :
    after (exec (.csign 4 (frameOf [0x55, 0x02, 0xC0, 0x01, 0x99, 0x77])) fresh) (fun t => decide
      ((answersC t).map (List.take 7) = [[0x55, 0x02, 0xC0, 0x01, 0x18, 0x77, 0]])) = true := by decide

/-- T-SGN-5: `n = 64` is refused with `REF_LEN`. -/
theorem test_csign_refuses_length :
    after (exec (.csign 64 (frameOf [])) fresh) (fun t => decide (t.portC.out = [.err .len])) = true := by decide

/-- T-MUX-14: the same frame is stored twice. -/
theorem test_pushr_stores_twice :
    after (exec (.pushr 0 (frameOf [1])) { fresh with u3 := { fresh.u3 with rq := [frameOf [1]] } }) (fun t => decide
      (t.u3.rq.map (fun f => f.toList.take 2) = [[1, 0], [1, 0]] ∧ t.portW.out = [.ok .none])) = true := by decide

/-- T-MUX-15: a full reply queue holds the push. -/
theorem test_pushr_holds_when_full :
    after (exec (.pushr 0 (frameOf [9])) { withParams { vectorParams with rqDepth := .frames 0 } with
        u3 := { fresh.u3 with rq := [frameOf [1]] } }) (fun t => decide
      (t.u3.rq.length = 1 ∧ t.portW.out = [] ∧ t.portW.held.isSome)) = true := by decide

/-- T-MUX-10: PUSHN is accepted while asleep and a pending POLL still waits. -/
theorem test_pushn_accepted_asleep :
    after (exec (.pushn 0 (frameOf [1])) { fresh with u3 := { fresh.u3 with pstate := .pending } }) (fun t => decide
      (t.u3.nq.length = 1 ∧ t.u3.pstate = .pending ∧ t.u3.deliverable = false ∧ t.portE.out = [.ok .none])) = true := by
  decide

/-- T-MUX-5: WAKE makes a waiting notification deliverable. -/
theorem test_wake_makes_deliverable :
    after (exec (.wake 0) { fresh with u3 := { fresh.u3 with nq := [frameOf [1]], pstate := .pending } })
      (fun t => decide (t.u3.awake = true ∧ t.u3.deliverable = true ∧ t.portW.out = [.ok .none])) = true := by decide

/-- T-MUX-4: POLL is accepted and waits, with no response; its `STATUS` is `14`. -/
theorem test_poll_waits :
    after (exec (.poll 0) { fresh with u3 := { fresh.u3 with nq := [frameOf [1]] } }) (fun t => decide
      (t.u3.pstate = .pending ∧ t.portR.out = [] ∧ t.u3.nq.length = 1 ∧ t.status = 0x14#8)) = true := by decide

/-- T-MUX-6: awake, the notification is delivered ahead of an older reply. -/
theorem test_poll_delivers_notification_first :
    after (step { fresh with
        u3 := { awake := true, rq := [frameOf [1], frameOf [2]], nq := [frameOf [7]], pstate := .pending, bcnt := 0 }
        schedule := [.deliver] }) (fun t => decide
      (t.delivered.map (fun f => f.toList.take 1) = [[7]] ∧ t.u3.rq.length = 2 ∧ t.u3.nq = [])) = true := by decide

/-- T-ENV-10: the Wake reply, pushed with `awake` already 1. -/
theorem test_cmdWake_reply :
    after (exec (.cmdWake 1) fresh) (fun t => decide (t.u3.awake = true ∧
      t.u3.rq.map (fun f => f.toList.take 8) = [[0x55, 0x04, 0xB0, 0x01, 0xE1, 0xE2, 0xCD, 0]])) = true := by decide

/-- T-ENV-1. -/
theorem test_cmdAckC0_reply :
    after (exec (.cmdAckC0 1) fresh) (fun t => decide
      (t.u3.rq.map (fun f => f.toList.take 6) = [[0x55, 0x02, 0xC0, 0x01, 0x18, 0]])) = true := by decide

/-- T-ENV-1a. -/
theorem test_cmdAckC3_reply :
    after (exec (.cmdAckC3 0x10) fresh) (fun t => decide
      (t.u3.rq.map (fun f => f.toList.take 6) = [[0x55, 0x02, 0xC3, 0x10, 0x2A, 0]])) = true := by decide

/-- T-ENV-3: one entry. -/
theorem test_cmdList_one_entry :
    after (exec (.cmdList 3) oneFigure) (fun t => decide
      (t.u3.rq.map (fun f => f.toList.take 14) =
        [[0x55, 0x0A, 0xD0, 0x03, 0x09, 1, 2, 3, 4, 5, 6, 7, 0x57, 0]])) = true := by decide

/-- T-ENV-4b: eight present slots do not fit, and with a `LIST_BASE_LEN` above 61 not even the empty list does (R12, R214). -/
theorem test_cmdList_refuses :
    [allSlots vectorParams, withParams { vectorParams with listBaseExtra := 60 }].all (fun s =>
      match exec (.cmdList 3) s with
      | .refused r => decide (r = .listTagsTooLong)
      | .next _ => false
      | .fault _ => false) = true := by decide

/-- T-ENV-5a: a hit. -/
theorem test_cmdRead_hit :
    after (exec (.cmdRead 4 uidA 0 0) oneFigure) (fun t => decide
      (t.u3.rq.map (fun f => f.toList.take 23) = [[0x55, 0x13, 0xD2, 0x04, 0, 1, 2, 3, 4, 5, 6, 7, 0xA0, 0xA1, 0xA2,
        0xA3, 0xA4, 0xA5, 0xA6, 0xA7, 0xA8, 0x1E, 0]])) = true := by decide

/-- T-ENV-5: a miss by sector 5. -/
theorem test_cmdRead_miss :
    after (exec (.cmdRead 5 uidA 5 0) oneFigure) (fun t => decide
      (t.u3.rq.map (fun f => f.toList.take 23) = [[0x55, 0x13, 0xD2, 0x05, 0, 0, 0, 0, 0, 0, 0, 0, 0, 0, 0, 0, 0, 0, 0,
        0, 0, 0x3F, 0]])) = true := by decide

/-- T-ENV-6 and T-ENV-9: the response of a write, and the bytes at offset 304 of the blob. -/
theorem test_cmdWrite_last_block :
    after (exec (.cmdWrite 9 uidA 4 3 (blockOf [0x5A, 0x5B])) oneFigure) (fun t => decide
      (t.u3.rq.map (fun f => f.toList.take 6) = [[0x55, 0x02, 0xD3, 0x09, 0x33, 0]] ∧
        (t.env.slots[0].data.toList.drop 302).take 5 = [0, 0, 0x5A, 0x5B, 0])) = true := by decide

/-- A write that misses changes no slot (R230). -/
theorem test_cmdWrite_miss :
    after (exec (.cmdWrite 9 uidA 5 0 (blockOf [0x5A])) oneFigure) (fun t => decide
      (t.env.slots[0].data.toList.take 3 = [1, 2, 3] ∧ t.u3.rq.length = 1)) = true := by decide

/-- T-ENV-7: 64 zero bytes, nothing signed. -/
theorem test_cmdUnknown_reply :
    after (exec (.cmdUnknown 0xFF) fresh) (fun t => decide
      (t.u3.rq.map Vector.toList = [List.replicate 64 0] ∧ t.portC.out = [])) = true := by decide

/-- T-ENV-8: the notification of an attach. -/
theorem test_attach_notification :
    after (step { fresh with portE := { fresh.portE with script := [.attach blobA 9] }, schedule := [.event] })
      (fun t => decide (t.u3.nq.map (fun f => f.toList.take 13) =
        [[0x56, 0xA1, 0xA2, 0x01, 1, 2, 3, 4, 5, 6, 7, 0xB6, 0]] ∧ t.env.results = [.loaded 0])) = true := by decide

/-- T-ENV-8a: the notification of a detach. -/
theorem test_detach_notification :
    after (step { oneFigure with portE := { fresh.portE with script := [.detach 0] }, schedule := [.event] })
      (fun t => decide (t.u3.nq.map (fun f => f.toList.take 13) =
        [[0x56, 0xA1, 0xA2, 0x00, 1, 2, 3, 4, 5, 6, 7, 0xB5, 0]] ∧ t.env.results = [.removed true])) = true := by decide

/-- The Builder's layout is one the spec admits, and its own. -/
theorem test_layout : testBuilder.layout = testBuilder.places := by decide

/-- A figure image as the Builder fills it (R219, R110): structural bytes, five serial bytes, the fresh image's own bytes,
and the descriptor with its random byte and operands, before CRCSIGN. -/
theorem test_built_image :
    (builtImage testBuilder (Vector.ofFn fun k => BitVec.ofNat 8 (0x51 + k.val)) 0xAA (Vector.replicate 320 0xFF)
        [0x71] [0x72, 0x73]).toList.take 33 =
      [0xD0, 0x51, 0x52, 0x53, 0x54, 0x55, 0xD6, 0xD7, 0xD8, 0xD9, 0xDA, 0xFF, 0xFF, 0xFF, 0xFF, 0xFF, 0xE0, 0xAA, 0xE2,
        0x71, 0xE4, 0x73, 0x72, 0xE7, 0xE8, 0xE9, 0xEA, 0xEB, 0, 0, 0, 0, 0xFF] := by decide

/-- T-MUX-20 and T-MUX-21: the order of the refusal checks. -/
theorem test_refusal_order :
    after (serveRequest .w ([0x41, 0x02] ++ List.replicate 64 0) fresh)
        (fun t => decide (t.portW.out = [.err .port])) = true ∧
      after (serveRequest .c [0x7F, 0x01] fresh) (fun t => decide (t.portC.out = [.err .badOp])) = true := by decide

/-- T-MUX-23: reset empties the queues and puts the block to sleep. -/
theorem test_rst :
    after (step { fresh with
        u3 := { fresh.u3 with awake := true, rq := [frameOf [1]], nq := [frameOf [2]] }
        schedule := [.rst] }) (fun t => decide (t.u3 = U3.afterReset)) = true := by decide

/-- A table word placed at the reset state is run by the next step, whatever the parameters are. -/
theorem test_first_instruction (nbits w : Nat) (i : Instr) (h : (nbits, w, i) ∈
      [(16, 0x580, Instr.poll 0), (16, 0x500, .wake 0), (8, 0xC0, .cmdAckC0 0), (8, 0xD0, .cmdList 0)]) :
    step (State.reset.withFetchWord nbits w) = exec i State.reset := by
  simp only [List.mem_cons, Prod.mk.injEq, List.not_mem_nil, or_false] at h
  rcases h with ⟨rfl, rfl, rfl⟩ | ⟨rfl, rfl, rfl⟩ | ⟨rfl, rfl, rfl⟩ | ⟨rfl, rfl, rfl⟩ <;> rfl

/-! ## Witnesses: the hypotheses of each statement can be met -/

/-- A queue capacity of one frame. -/
def capacityOne : Params := { vectorParams with rqDepth := .frames 0, nqDepth := .frames 0 }

/-- One frame in each queue. -/
def oneInEach (p : Params) : State :=
  { withParams p with u3 := { U3.afterReset with rq := [frameOf [1]], nq := [frameOf [2]] } }

/-- A pending POLL with nothing deliverable, and the moves of U3 and the clock. -/
def waiting (turns : List Turn) : State :=
  { fresh with u3 := { U3.afterReset with pstate := .pending, nq := [frameOf [2]] }, schedule := turns }

theorem witness_DecodeOfEncodeIsIdentity : (Instr.cmdUnknown 0xFF).wf = true ∧ (Instr.cmdUnknown 0x00).wf = true := by
  decide

theorem witness_EncodeOfDecodedRequestIsIdentity : decodeBytes .request [0xFF, 0x05] = .ok (.poll 127) := by decide

theorem witness_PlacedWordRunsNext :
    decodeTableWord 16 0x580 = some (.poll 0) ∧ decodeTableWord 8 0xFF = some (.cmdUnknown 0xFF) := by decide

theorem witness_StepRunsDecodedRequest_c : ∃ (s : State) (bytes : List Byte) (i : Instr),
    decodeBytes .request bytes = .ok i ∧ s.schedule = [.compute] ∧ s.portC.held = none ∧
      s.portC.script = [.request bytes] ∧ i.port = .c :=
  ⟨{ fresh with
      schedule := [.compute], portC := { fresh.portC with script := [.request (encode (.crc32f 0 (blockOf digits)))] } },
    _, .crc32f 0 (blockOf digits), by decide, rfl, rfl, rfl, rfl⟩

theorem witness_StepRunsDecodedRequest_w : ∃ (s : State) (bytes : List Byte) (i : Instr),
    decodeBytes .request bytes = .ok i ∧ s.schedule = [.writer] ∧ s.portW.held = none ∧
      s.portW.script = [.request bytes] ∧ i.port = .w :=
  ⟨{ fresh with schedule := [.writer], portW := { fresh.portW with script := [.request [0x00, 0x05]] } },
    _, .wake 0, by decide, rfl, rfl, rfl, rfl⟩

theorem witness_StepRunsDecodedRequest_e : ∃ (s : State) (bytes : List Byte) (i : Instr),
    decodeBytes .request bytes = .ok i ∧ s.schedule = [.event] ∧ s.portE.held = none ∧
      s.portE.script = [.request bytes] ∧ i.port = .e :=
  ⟨{ fresh with
      schedule := [.event], portE := { fresh.portE with script := [.request (encode (.pushn 0 (frameOf [1])))] } },
    _, .pushn 0 (frameOf [1]), by decide, rfl, rfl, rfl, rfl⟩

theorem witness_StepRunsDecodedRequest_r : ∃ (s : State) (bytes : List Byte) (i : Instr),
    decodeBytes .request bytes = .ok i ∧ s.schedule = [.reader] ∧ s.u3.pstate = .idle ∧ s.portR.held = none ∧
      s.portR.script = [.request bytes] ∧ i.port = .r :=
  ⟨{ fresh with schedule := [.reader], portR := { fresh.portR with script := [.request [0x80, 0x05]] } },
    _, .poll 0, by decide, rfl, rfl, rfl, rfl, rfl⟩

/-- A request that holds on each port, with the exclusive region free and occupied. -/
theorem witness_StepRunsDecodedRequest_held : ∃ s : State,
    s.portC.held.isSome ∧ s.portW.held.isSome ∧ s.portE.held.isSome ∧ s.portR.held.isSome ∧ s.u3.pstate = .idle ∧
      s.env.region = .free ∧ (Instr.cmdWake 0).wire = .command ∧ Region.event ≠ .free :=
  ⟨{ fresh with
      portC := { fresh.portC with held := some (.csum 0 (frameOf [])) }
      portW := { fresh.portW with held := some (.cmdWake 0) }
      portE := { fresh.portE with held := some (.pushn 0 (frameOf [])) }
      portR := { fresh.portR with held := some (.poll 0) } }, rfl, rfl, rfl, rfl, rfl, rfl, rfl, by decide⟩

theorem witness_StepRunsDecodedCommand_write : ∃ (s : State) (cmd : Frame) (i : Instr),
    s.schedule = [.writer] ∧ s.portW.held = none ∧ s.portW.script = [.hostWrite cmd] ∧ s.env.region = .free ∧
      decodeBytes .command cmd.toList = .ok i :=
  ⟨{ fresh with
      schedule := [.writer], portW := { fresh.portW with script := [.hostWrite (frameOf [0, 0, 0xC0, 1])] } },
    frameOf [0, 0, 0xC0, 1], .cmdAckC0 1, rfl, rfl, rfl, rfl, by decide⟩

theorem witness_StepRunsDecodedCommand_read : ∃ s : State,
    s.schedule = [.reader] ∧ s.u3.pstate = .idle ∧ s.portR.held = none ∧ s.portR.script = [.hostRead 64] :=
  ⟨{ fresh with schedule := [.reader], portR := { fresh.portR with script := [.hostRead 64] } }, rfl, rfl, rfl, rfl⟩

/-- For Crc32fCompletes, CrcsignCompletes, CsumCompletes, CsignCompletes and ChecksumIsTheSumModulo256, at both ends of
the range of `n`. -/
theorem witness_idle_units : fresh.u1.busy = false ∧ fresh.u2.busy = false ∧ (0#7).toNat ≤ 63 ∧ (63#7).toNat ≤ 63 ∧
    (64#7).toNat ≤ 64 := by decide

theorem witness_CrcWindowLaw :
    (∀ (k : Nat) (h : k < 12), (blockOf digits)[k] = (blockOf (digits ++ [0xFF, 0xFF, 0xFF, 0xFF]))[k]) ∧
      blockOf digits ≠ blockOf (digits ++ [0xFF, 0xFF, 0xFF, 0xFF]) ∧ fresh.u1.busy = false := by decide

theorem witness_CrcIsLinear_leading_zeros :
    (∀ k, (h : k < 16) → k < 12 → (blockOf [0, 0, 0, 0, 0, 0, 0, 0, 0, 0, 0, 0, 1])[k] = 0) ∧
      (∀ k, (h : k < 16) → k < 0 → (blockOf [1])[k] = 0) := by decide

theorem witness_ByteSerialUnitsAgreeWithAtomicOnes : (64#7).toNat ≤ 64 ∧ (0#7).toNat ≤ 64 := by decide

theorem witness_BusyUnitsHoldRequests : ∃ s : State,
    s.u1.busy = true ∧ s.u2.busy = true ∧ (64#7).toNat ≤ 64 ∧ (63#7).toNat ≤ 63 ∧
      (Instr.cmdList 0).wire = .command ∧ s.params.listBaseLen + 8 * s.presentSlots.length + 2 ≤ 63 :=
  ⟨{ fresh with u1 := { fresh.u1 with busy := true }, u2 := { fresh.u2 with busy := true } },
    rfl, rfl, by decide, by decide, rfl, by decide⟩

theorem witness_BusyUnitsHoldRequests_portC : ∃ s : State,
    s.u2.busy = false ∧ s.portC.held ≠ none ∧ (Instr.cmdWake 0).wire = .command :=
  ⟨{ fresh with portC := { fresh.portC with held := some (.csum 0 (frameOf [])) } }, rfl, by decide, rfl⟩

theorem witness_LengthOutOfRangeIsRefused : 64 < (65#7).toNat ∧ 64 < (127#7).toNat ∧ 63 < (64#7).toNat := by decide

theorem witness_ChecksumWindowLaw :
    (∀ (k : Nat) (h : k < 64), k < (4#7).toNat → (frameOf [1, 2, 3, 4, 5])[k] = (frameOf [1, 2, 3, 4, 6])[k]) ∧
      (4#7).toNat ≤ 64 ∧ fresh.u2.busy = false := by decide

theorem witness_ChecksumConcatenationLaw : (0 ≤ 64 ∧ 64 ≤ 64) ∧ (64 ≤ 64 ∧ 63 < 64) := by decide

theorem witness_SignedFramesAreFixedPoints : 0 < 64 ∧ 63 < 64 := by decide

/-- For PushrCompletes and PushnCompletes: the last free entry, and no bound at all. -/
theorem witness_push_has_room :
    capacityOne.rqDepth.fits ((withParams capacityOne).u3.rq.length + 1) = true ∧
      capacityOne.nqDepth.fits ((withParams capacityOne).u3.nq.length + 1) = true ∧
      vectorParams.rqDepth.fits ((oneInEach vectorParams).u3.rq.length + 1) = true := by decide

theorem witness_PushOnAFullQueueHolds :
    capacityOne.rqDepth.capacity? = some (oneInEach capacityOne).u3.rq.length ∧
      capacityOne.nqDepth.capacity? = some (oneInEach capacityOne).u3.nq.length := by decide

/-- A holding PUSHR with room again at the last entry, its Writer inside the region, and the step that accepts it. -/
theorem witness_PushOnAFullQueueHolds_accepted : ∃ (s t : State) (f : Frame),
    s.schedule = [.writer] ∧ s.portW.held = some (.pushr 0 f) ∧ s.params.rqDepth.fits (s.u3.rq.length + 1) = true ∧
      s.portE.held = some (.pushn 0 f) ∧ s.params.nqDepth.fits (s.u3.nq.length + 1) = true ∧
      s.env.region = .writer ∧ step s = .next t ∧ t.env.region = .free :=
  ⟨{ withParams capacityOne with
      schedule := [.writer]
      portW := { fresh.portW with held := some (.pushr 0 (frameOf [3])) }
      portE := { fresh.portE with held := some (.pushn 0 (frameOf [3])) }
      env := { Env.initial with region := .writer } }, _, frameOf [3], rfl, rfl, rfl, rfl, rfl, rfl, rfl, rfl⟩

theorem witness_PollIsAccepted : fresh.u3.pstate = .idle ∧ (waiting []).u3.pstate = .pending := by decide

theorem witness_DeliveryTakesNotificationsFirst_awake : ∃ (s : State) (f : Frame),
    s.schedule = [.deliver] ∧ s.u3.pstate = .pending ∧ s.u3.awake = true ∧ s.u3.nq = [f] :=
  ⟨{ waiting [.deliver] with u3 := { (waiting []).u3 with awake := true } }, _, rfl, rfl, rfl, rfl⟩

theorem witness_DeliveryTakesNotificationsFirst_asleep : ∃ (s : State) (f : Frame),
    s.schedule = [.deliver] ∧ s.u3.pstate = .pending ∧ s.u3.awake = false ∧ s.u3.nq ≠ [] ∧ s.u3.rq = [f] :=
  ⟨{ waiting [.deliver] with u3 := { (waiting []).u3 with rq := [frameOf [1]] } }, _, rfl, rfl, rfl, by decide, rfl⟩

theorem witness_BackoffCountsOnlyWhileWaiting :
    (waiting [.tick]).schedule = [.tick] ∧ (waiting [.deliver]).schedule = [.deliver] ∧
      (waiting []).u3.pstate = .pending ∧ (waiting []).u3.deliverable = false ∧ fresh.u3.pstate = .idle := by decide

/-- A run in which U3 attempts, the clock ticks, the Reader has its turn, the host closes, and the block goes on past the
end of the schedule; the POLL still waits. -/
theorem witness_BlockedPollNeverTimesOut : ∃ s t : State,
    RunsTo 5 s t ∧ s.u3.pstate = .pending ∧ s.u3.deliverable = false ∧
      (∀ x ∈ s.schedule, x = .deliver ∨ x = .tick ∨ x = .reader ∨ ∃ c, x = .hostCall c) ∧
      (∀ p, p ≠ .r → s.heldOn p = none) :=
  ⟨waiting [.deliver, .tick, .reader, .hostCall .closeCall], _,
    .step rfl rfl (.step rfl rfl (.step rfl rfl (.step rfl rfl (.step rfl rfl (.refl _))))), rfl, rfl,
    by simp [waiting], by intro p _; cases p <;> rfl⟩

/-- The same with a PUSHR that holds on port W, no longer than the schedule. -/
theorem witness_BlockedPollNeverTimesOut_held : ∃ s t : State,
    RunsTo 1 s t ∧ s.u3.pstate = .pending ∧ s.u3.deliverable = false ∧ s.portW.held.isSome ∧ 1 ≤ s.schedule.length ∧
      (∀ x ∈ s.schedule, x = .deliver ∨ x = .tick ∨ x = .reader ∨ ∃ c, x = .hostCall c) :=
  ⟨{ waiting [.tick] with portW := { fresh.portW with held := some (.pushr 0 (frameOf [3])) } }, _,
    .step rfl rfl (.refl _), rfl, rfl, rfl, by decide, by simp [waiting]⟩

/-- The Writer's WAKE lifts the wait of a POLL behind a waiting notification. -/
theorem witness_OnlyPushesAndWakeLiftTheWait : ∃ s t : State,
    step s = .next t ∧ s.resetNext = false ∧ s.u3.pstate = .pending ∧ s.u3.deliverable = false ∧
      t.u3.deliverable = true :=
  ⟨{ waiting [.writer] with portW := { fresh.portW with script := [.request [0x00, 0x05]] } }, _,
    rfl, rfl, rfl, rfl, rfl⟩

/-- For AsleepNoNotificationIsDelivered and EveryStepMovesTheQueuesByTheRules. -/
theorem witness_asleep_step : ∃ s t : State,
    step s = .next t ∧ s.resetNext = false ∧ s.u3.awake = false ∧ s.u3.nq ≠ [] :=
  ⟨waiting [.deliver], _, rfl, rfl, rfl, by decide⟩

theorem witness_AwakeIsMonotone : ∃ s t : State, step s = .next t ∧ s.resetNext = false ∧ s.u3.awake = true :=
  ⟨{ fresh with u3 := { fresh.u3 with awake := true } }, _, rfl, rfl, rfl⟩

theorem witness_RunsConserveFramesInOrder : ∃ s t : State,
    RunsTo 1 s t ∧ s.u3.awake = false ∧ t.u3.awake = false ∧ t.delivered ≠ s.delivered :=
  ⟨{ waiting [.deliver] with u3 := { (waiting []).u3 with rq := [frameOf [1]] } }, _,
    .step rfl rfl (.refl _), rfl, rfl, by decide⟩

/-- The idle machine with an acceptable PUSHN that holds and a POLL that can deliver. -/
def twoReady : State :=
  { withParams capacityOne with
    u3 := { U3.afterReset with pstate := .pending, rq := [frameOf [1]] }
    portE := { fresh.portE with held := some (.pushn 0 (frameOf [2])) } }

/-- The next state of an endless run of the tests. -/
def nextOf (s : State) : State :=
  match step s with
  | .next t => t
  | .fault _ | .refused _ => s

/-- An endless run: a delivery and a PUSHN are enabled at its start. -/
theorem witness_EveryEndlessRunIsWeaklyFair : ∃ r : Nat → State,
    EndlessRun r ∧ (∀ p i, (r 0).heldOn p = some i → i.port = p) ∧
      (r 0).u3.pstate = .pending ∧ (r 0).u3.deliverable = true ∧
      (∃ n f, (r 0).portE.held = some (.pushn n f)) ∧ (r 0).params.nqDepth.fits ((r 0).u3.nq.length + 1) = true := by
  refine ⟨fun j => match j with
    | 0 => twoReady
    | 1 => nextOf twoReady
    | _ + 2 => nextOf (nextOf twoReady), ?_, ?_, rfl, rfl, ⟨_, _, rfl⟩, rfl⟩
  · intro j
    match j with
    | 0 => exact ⟨rfl, rfl⟩
    | 1 => exact ⟨rfl, rfl⟩
    | _ + 2 => exact ⟨rfl, rfl⟩
  · intro p i h
    cases p <;> cases h
    rfl

/-- An endless run with an acceptable PUSHR that holds at its start. -/
theorem witness_EveryEndlessRunIsWeaklyFair_w : ∃ r : Nat → State,
    EndlessRun r ∧ (∀ p i, (r 0).heldOn p = some i → i.port = p) ∧
      (∃ n f, (r 0).portW.held = some (.pushr n f)) ∧ (r 0).params.rqDepth.fits ((r 0).u3.rq.length + 1) = true := by
  refine ⟨fun j => match j with
    | 0 => { withParams capacityOne with portW := { fresh.portW with held := some (.pushr 0 (frameOf [2])) } }
    | _ + 1 => nextOf { withParams capacityOne with portW := { fresh.portW with held := some (.pushr 0 (frameOf [2])) } },
    ?_, ?_, ⟨_, _, rfl⟩, rfl⟩
  · intro j
    match j with
    | 0 => exact ⟨rfl, rfl⟩
    | _ + 1 => exact ⟨rfl, rfl⟩
  · intro p i h
    cases p <;> cases h
    rfl

/-- Headers `100`, `580` on port W, `241` and `2C0` on port C. -/
theorem witness_RefusalChecksInOrder :
    (BitVec.truncate 11 (0x01#8 ++ 0x00#8)).extractLsb' 7 4 = 0b0010#4 ∧
      (BitVec.truncate 11 (0x05#8 ++ 0x80#8)).extractLsb' 7 4 = Op.code .poll ∧ Op.port .poll ≠ .w ∧
      ([] : List Byte).length = Op.operandLen .poll ∧
      (BitVec.truncate 11 (0x02#8 ++ 0x41#8)).extractLsb' 7 4 = Op.code .csum ∧
      64 < ((BitVec.truncate 11 (0x02#8 ++ 0x41#8)).extractLsb' 0 7).toNat ∧
      (BitVec.truncate 11 (0x02#8 ++ 0xC0#8)).extractLsb' 7 4 = Op.code .csign ∧
      63 < ((BitVec.truncate 11 (0x02#8 ++ 0xC0#8)).extractLsb' 0 7).toNat ∧
      (List.replicate 64 (0 : Byte)).length = Op.operandLen .csum ∧ Op.port .csum = .c ∧ Op.port .csign = .c ∧
      (0x05#8).toNat < 8 := by decide

/-- Each port can be presented a request on its turn. -/
theorem witness_RefusalChecksInOrder_ports (bytes : List Byte) (p : PortId) : ∃ s s' : State,
    TurnPresents p bytes s s' := by
  cases p
  · exact ⟨{ fresh with schedule := [.compute], portC := { fresh.portC with script := [.request bytes] } }, _,
      [], [], rfl, rfl, rfl, rfl⟩
  · exact ⟨{ fresh with schedule := [.writer], portW := { fresh.portW with script := [.request bytes] } }, _,
      [], [], rfl, rfl, rfl, rfl⟩
  · exact ⟨{ fresh with schedule := [.event], portE := { fresh.portE with script := [.request bytes] } }, _,
      [], [], rfl, rfl, rfl, rfl⟩
  · exact ⟨{ fresh with schedule := [.reader], portR := { fresh.portR with script := [.request bytes] } }, _,
      [], [], rfl, rfl, rfl, rfl, rfl⟩

theorem witness_RefusedRequestChangesNoBlockState : ∃ s t : State,
    step s = .next t ∧ t.outOf .c = s.outOf .c ++ [.err .badOp] :=
  ⟨{ fresh with schedule := [.compute], portC := { fresh.portC with script := [.request [0x00, 0x01]] } }, _, rfl, rfl⟩

theorem witness_UnitsAreIndependent :
    (Instr.csum 64 (frameOf [])).wire = .request ∧ (Instr.csum 64 (frameOf [])).port = .c ∧
      (Instr.poll 0).wire = .request ∧ (Instr.poll 0).port ≠ .c ∧
      (∃ n d, Instr.crcsign 0 (blockOf []) = .crc32f n d ∨ Instr.crcsign 0 (blockOf []) = .crcsign n d) ∧
      (∃ n f, Instr.csum 64 (frameOf []) = .csum n f ∨ Instr.csum 64 (frameOf []) = .csign n f) :=
  ⟨rfl, rfl, rfl, by decide, ⟨_, _, .inr rfl⟩, ⟨_, _, .inl rfl⟩⟩

/-- For every completion statement of the commands: U2, port C and the reply queue can take its operations, at the last
free entry of the queue too. -/
theorem witness_command_can_run :
    (withParams capacityOne).u2.busy = false ∧ (withParams capacityOne).portC.held = none ∧
      capacityOne.rqDepth.fits ((withParams capacityOne).u3.rq.length + 1) = true := by decide

/-- The longest List Tags response: seven entries, checksum at offset 63. -/
theorem witness_CmdListCompletes :
    (sevenSlots { vectorParams with listBaseExtra := 3 }).params.listBaseLen +
        8 * (sevenSlots { vectorParams with listBaseExtra := 3 }).presentSlots.length + 2 = 63 ∧
      (sevenSlots { vectorParams with listBaseExtra := 3 }).u2.busy = false ∧
      (sevenSlots { vectorParams with listBaseExtra := 3 }).portC.held = none := by decide

/-- One byte more, and eight entries. -/
theorem witness_ListTagsThatDoesNotFitIsRefused :
    (sevenSlots { vectorParams with listBaseExtra := 4 }).params.listBaseLen +
        8 * (sevenSlots { vectorParams with listBaseExtra := 4 }).presentSlots.length + 2 = 64 ∧
      63 < (allSlots vectorParams).params.listBaseLen + 8 * (allSlots vectorParams).presentSlots.length + 2 := by decide

/-- For CmdReadCompletes and CmdWriteCompletes, a hit: the lowest of several slots with one uid, the last block. -/
theorem witness_block_hit :
    (0 : Fin 8) ∈ (allSlots vectorParams).presentSlots ∧ (allSlots vectorParams).env.slots[(0 : Fin 8)].uid = uidA ∧
      (∀ j ∈ (allSlots vectorParams).presentSlots, (allSlots vectorParams).env.slots[j].uid = uidA → (0 : Fin 8) ≤ j) ∧
      (4#8).toNat < 5 ∧ (3#8).toNat < 4 := by decide

/-- For the same two, the three misses. -/
theorem witness_block_miss :
    (∀ i ∈ oneFigure.presentSlots, oneFigure.env.slots[i].uid ≠ Vector.replicate 7 (0xEE : Byte)) ∧
      5 ≤ (5#8).toNat ∧ 4 ≤ (4#8).toNat := by decide

theorem witness_OneCommandOneReply_room : ∃ (i : Instr) (s t : State),
    i.wire = .command ∧ s.u2.busy = false ∧ s.portC.held = none ∧ exec i s = .next t ∧
      s.params.rqDepth.fits (s.u3.rq.length + 1) = true :=
  ⟨.cmdAckC0 1, fresh, _, rfl, rfl, rfl, rfl, rfl⟩

theorem witness_OneCommandOneReply_full : ∃ (i : Instr) (s t : State),
    i.wire = .command ∧ s.u2.busy = false ∧ s.portC.held = none ∧ exec i s = .next t ∧
      s.params.rqDepth.fits (s.u3.rq.length + 1) = false :=
  ⟨.cmdUnknown 0xFF, oneInEach capacityOne, _, rfl, rfl, rfl, rfl, rfl⟩

theorem witness_ReadAfterWriteGivesThePayload :
    (∃ i ∈ oneFigure.presentSlots, oneFigure.env.slots[i].uid = uidA) ∧ (4#8).toNat < 5 ∧ (3#8).toNat < 4 ∧
      (4#8 ≠ 0 ∨ 3#8 ≠ 0) := by decide

/-- The lowest free slot is slot 1, with a figure in slot 0; the clause awake or asleep is that of `awake`. -/
theorem witness_AttachTakesTheLowestFreeSlot : ∃ (s : State) (blob : Image) (handle : Nat) (i : Fin 8),
    s.schedule = [.event] ∧ s.portE.held = none ∧ s.portE.script = [.attach blob handle] ∧ s.env.region = .free ∧
      s.u2.busy = false ∧ s.portC.held = none ∧ s.params.nqDepth.fits (s.u3.nq.length + 1) = true ∧
      i.val < s.params.numSlots ∧ s.env.slots[i].present = false ∧
      (∀ j : Fin 8, j < i → s.env.slots[j].present = true) ∧
      (∀ j ∈ s.presentSlots, s.env.slots[j].uid.toList ≠ blob.toList.take 7 ∧ s.env.slots[j].handle ≠ some handle) ∧
      s.params.notifyWhenAsleep = true :=
  ⟨{ oneFigure with schedule := [.event], portE := { fresh.portE with script := [.attach (packBytes 320 [8]) 10] } },
    packBytes 320 [8], 10, 1, rfl, rfl, rfl, rfl, rfl, rfl, rfl, by decide, by decide, by decide, by decide, rfl⟩

/-- The same on the last slot of a registry of seven, asleep without notifications. -/
theorem witness_AttachTakesTheLowestFreeSlot_silent : ∃ (s : State) (blob : Image) (handle : Nat),
    s.schedule = [.event] ∧ s.portE.held = none ∧ s.portE.script = [.attach blob handle] ∧ s.env.region = .free ∧
      s.u2.busy = false ∧ s.portC.held = none ∧ s.params.nqDepth.fits (s.u3.nq.length + 1) = true ∧
      (6 : Fin 8).val < s.params.numSlots ∧ s.env.slots[(6 : Fin 8)].present = false ∧
      (∀ j : Fin 8, j < 6 → s.env.slots[j].present = true) ∧
      (∀ j ∈ s.presentSlots, s.env.slots[j].uid.toList ≠ blob.toList.take 7 ∧ s.env.slots[j].handle ≠ some handle) ∧
      s.u3.awake = false ∧ s.params.notifyWhenAsleep = false :=
  ⟨{ sevenSlots { vectorParams with eightSlots := false, notifyWhenAsleep := false } with
      env := (sevenSlots vectorParams).env.setSlot 6 Slot.empty
      schedule := [.event]
      portE := { fresh.portE with script := [.attach (packBytes 320 [8]) 10] } },
    packBytes 320 [8], 10, rfl, rfl, rfl, rfl, rfl, rfl, rfl, by decide, by decide, by decide, by decide, rfl, rfl⟩

/-- An attach whose notification meets a full queue, and one that waits for U2 or for the region, or is refused. -/
theorem witness_AttachTakesTheLowestFreeSlot_others : ∃ s : State,
    s.env.region = .free ∧ (1 : Fin 8).val < s.params.numSlots ∧ s.env.slots[(1 : Fin 8)].present = false ∧
      (∀ j : Fin 8, j < 1 → s.env.slots[j].present = true) ∧ s.params.notifyWhenAsleep = true ∧
      s.params.nqDepth.fits (s.u3.nq.length + 1) = false ∧ s.portC.held ≠ none ∧
      (∃ j ∈ s.presentSlots, s.env.slots[j].uid.toList = blobA.toList.take 7) ∧
      (∃ j ∈ s.presentSlots, s.env.slots[j].handle = some 9) ∧
      (∀ j ∈ s.presentSlots, s.env.slots[j].uid.toList ≠ (packBytes 320 [8]).toList.take 7) :=
  ⟨{ oneInEach capacityOne with
      env := oneFigure.env, portC := { fresh.portC with held := some (.csum 0 (frameOf [])) } },
    rfl, by decide, by decide, by decide, rfl, rfl, by decide, by decide, by decide, by decide⟩

/-- Its next state when the queue is full and the environment keeps its region: the PUSHN holds (R295). -/
theorem test_attach_on_full_queue :
    after (step { oneInEach capacityOne with
        portE := { fresh.portE with script := [.attach blobA 9] }, schedule := [.event] })
      (fun t => decide (t.portE.held.isSome ∧ t.env.region = .event ∧ t.u3.nq.length = 1 ∧
        t.env.results = [.loaded 0])) = true := by decide

/-- Seven occupied slots of a registry of seven. -/
theorem witness_AttachToAFullRegistryChangesNothing : ∃ (s : State) (blob : Image) (handle : Nat),
    s.schedule = [.event] ∧ s.portE.held = none ∧ s.portE.script = [.attach blob handle] ∧ s.env.region = .free ∧
      (∀ j : Fin 8, j.val < s.params.numSlots → s.env.slots[j].present = true) :=
  ⟨{ sevenSlots { vectorParams with eightSlots := false } with
      schedule := [.event], portE := { fresh.portE with script := [.attach blobA 10] } },
    blobA, 10, rfl, rfl, rfl, rfl, by decide⟩

theorem witness_DetachPersistsAndReleases_present : ∃ (s : State) (i : Fin 8) (h : Nat),
    s.schedule = [.event] ∧ s.portE.held = none ∧ s.portE.script = [.detach i.val] ∧ s.env.region = .free ∧
      i.val < s.params.numSlots ∧ s.env.slots[i].present = true ∧ s.env.slots[i].handle = some h ∧
      s.u2.busy = false ∧ s.portC.held = none ∧ s.params.nqDepth.fits (s.u3.nq.length + 1) = true :=
  ⟨{ allSlots vectorParams with schedule := [.event], portE := { fresh.portE with script := [.detach 7] } },
    7, 7, rfl, rfl, rfl, rfl, by decide, by decide, by decide, rfl, rfl, rfl⟩

theorem witness_DetachPersistsAndReleases_absent : ∃ (s : State) (i : Fin 8),
    s.schedule = [.event] ∧ s.portE.held = none ∧ s.portE.script = [.detach i.val] ∧ s.env.region = .free ∧
      i.val < s.params.numSlots ∧ s.env.slots[i].present = false :=
  ⟨{ fresh with schedule := [.event], portE := { fresh.portE with script := [.detach 0] } },
    0, rfl, rfl, rfl, rfl, by decide, by decide⟩

/-- A detach asleep without notifications while port C has a request in flight, one whose notification meets a full
queue, and an index that is no slot. -/
theorem witness_DetachPersistsAndReleases_others : ∃ s s' : State,
    s.env.slots[(0 : Fin 8)].present = true ∧ s.env.slots[(0 : Fin 8)].handle = some 0 ∧
      s.u3.awake = false ∧ s.params.notifyWhenAsleep = false ∧ s.params.numSlots ≤ 7 ∧
      s'.env.slots[(0 : Fin 8)].present = true ∧ s'.params.notifyWhenAsleep = true ∧
      s'.params.nqDepth.fits (s'.u3.nq.length + 1) = false ∧ s'.u2.busy = false ∧ s'.portC.held = none :=
  ⟨sevenSlots { vectorParams with eightSlots := false, notifyWhenAsleep := false },
    { allSlots capacityOne with u3 := (oneInEach capacityOne).u3 },
    by decide, by decide, rfl, rfl, by decide, by decide, rfl, rfl, rfl, rfl⟩

/-- A new handle with a store that can be created, beside an occupied slot. -/
theorem witness_CreatedFigureHasASignedDescriptor : ∃ (s : State) (handle : Nat) (ok : Bool),
    s.schedule = [.compute] ∧ s.portC.held = none ∧ s.portC.script = [.newFigure [1] [2, 3] handle ok] ∧
      s.u1.busy = false ∧ ok = true ∧ getFile handle s.env.files = none ∧ (∀ i ∈ s.presentSlots, s.env.slots[i].handle ≠ some handle) :=
  ⟨{ oneFigure with schedule := [.compute], portC := { fresh.portC with script := [.newFigure [1] [2, 3] 10 true] } },
    10, true, rfl, rfl, rfl, rfl, rfl, rfl, by decide⟩

/-- A store that cannot be created. -/
theorem witness_CreatedFigureHasASignedDescriptor_fails : ∃ (s : State) (handle : Nat) (ok : Bool),
    s.schedule = [.compute] ∧ s.portC.held = none ∧ s.portC.script = [.newFigure [] [] handle ok] ∧
      s.u1.busy = false ∧ ok = false :=
  ⟨{ fresh with schedule := [.compute], portC := { fresh.portC with script := [.newFigure [] [] 10 false] } },
    10, false, rfl, rfl, rfl, rfl, rfl⟩

/-- A store that can be created with a handle that a slot owns, or that names a file; and a busy U1. -/
theorem witness_CreatedFigureHasASignedDescriptor_used :
    (∃ i ∈ oneFigure.presentSlots, oneFigure.env.slots[i].handle = some 9) ∧
      getFile 5 (putFile 5 blobA []) ≠ none ∧ ({ fresh.u1 with busy := true } : U1).busy = true := by decide

theorem witness_RstDropsWhatIsInFlight : (waiting [.rst]).schedule = [.rst] := by decide

theorem witness_HostCallsAndParametersAreInert : ∃ s t : State,
    s.schedule = [.hostCall .openCall] ∧ step s = .next t :=
  ⟨waiting [.hostCall .openCall], _, rfl, rfl⟩

/-- Both queues exactly full. -/
theorem witness_StatusShowsTheDerivedPredicates :
    capacityOne.rqDepth.fits (oneInEach capacityOne).u3.rq.length = true ∧
      capacityOne.nqDepth.fits (oneInEach capacityOne).u3.nq.length = true := by decide

/-- The machine with a figure in slot 0 has the invariant, and takes a step. -/
theorem witness_EveryStepKeepsTheInvariant : ∃ s t : State, s.Inv ∧ step s = .next t := by
  refine ⟨oneFigure, _, ?_, rfl⟩
  constructor
  case heldOwn => intro p i h; cases p <;> cases h
  case filesOrdered => exact List.Pairwise.nil
  all_goals decide

end Sys2Proof.Tests
end

section
/-!
PROOFS. The statements of the family 10_state.md: the state after reset, placing and serving a request, the holds of a
busy unit, the STATUS view, the independence of the units, and the invariant of every step.
-/

namespace Sys2Proof.Machine

/-! ## The step and the turns -/

/-- While the schedule lasts, its head says whose turn it is. -/
theorem step_of_schedule_cons {s : State} {turn : Turn} {ts : List Turn} (h : s.schedule = turn :: ts) :
    step s = performTurn turn { s with schedule := ts } := by
  simp only [step, runTurn, h]

/-- Past the schedule's end the block moves by itself (42_mux.md R199). -/
theorem step_of_schedule_nil {s : State} (h : s.schedule = []) : step s = performTurn s.idleTurn s := by
  simp only [step, runTurn, h]

/-- Port C's turn with a holding request runs it again (60_exceptions.md R255). -/
theorem computeTurn_of_held {s : State} {i : Instr} (h : s.portC.held = some i) : computeTurn s = exec i s := by
  simp only [computeTurn, h]

/-- Port W's turn with a holding request runs it again, unless it is a command and somebody is inside the region. -/
theorem writerTurn_of_held {s : State} {i : Instr} (h : s.portW.held = some i) :
    writerTurn s = if s.commandWaits i then .next s else mapNext State.writerLeaves (exec i s) := by
  simp only [writerTurn, h]

/-- Port E's turn with a holding request runs it again. -/
theorem eventTurn_of_held {s : State} {i : Instr} (h : s.portE.held = some i) :
    eventTurn s = mapNext State.eventLeaves (exec i s) := by
  simp only [eventTurn, h]

/-- Port R's turn does nothing while a POLL is pending (10_state.md R55). -/
theorem readerTurn_of_pending {s : State} (h : s.u3.pstate = .pending) : readerTurn s = .next s := by
  simp only [readerTurn, h]

/-- Port R's turn with a holding request and no POLL pending runs it again. -/
theorem readerTurn_of_held {s : State} {i : Instr} (hidle : s.u3.pstate = .idle) (h : s.portR.held = some i) :
    readerTurn s = exec i s := by
  simp only [readerTurn, hidle, h]

/-- A step that presents a request serves it on the state with the turn and the script entry consumed. -/
theorem step_of_turnPresents {p : PortId} {bytes : List Byte} {s s' : State} (h : TurnPresents p bytes s s') :
    step s = serveRequest p bytes s' := by
  cases p with
  | c =>
    obtain ⟨ts, rest, hsched, hheld, hscript, rfl⟩ := h
    simp only [step_of_schedule_cons hsched, performTurn, computeTurn, hheld, hscript]
  | w =>
    obtain ⟨ts, rest, hsched, hheld, hscript, rfl⟩ := h
    simp only [step_of_schedule_cons hsched, performTurn, writerTurn, hheld, hscript]
  | e =>
    obtain ⟨ts, rest, hsched, hheld, hscript, rfl⟩ := h
    simp only [step_of_schedule_cons hsched, performTurn, eventTurn, hheld, hscript]
  | r =>
    obtain ⟨ts, rest, hsched, hheld, hscript, hidle, rfl⟩ := h
    simp only [step_of_schedule_cons hsched, performTurn, readerTurn, hheld, hscript, hidle]

/-- A request that decodes to an operation its port lists is run (10_state.md R54). -/
theorem serveRequest_of_decodes {p : PortId} {bytes : List Byte} {i : Instr} (s : State)
    (hdec : decodeBytes .request bytes = .ok i) (hport : i.port = p) : serveRequest p bytes s = exec i s := by
  simp [serveRequest, hdec, hport]

/-- When a command waits (60_exceptions.md R266 duty 3). -/
theorem State.commandWaits_iff (s : State) (i : Instr) :
    s.commandWaits i = true ↔ i.wire = .command ∧ s.env.region ≠ .free := by
  simp [State.commandWaits]

/-- Settles O6: each port's turn serves the head of its script, or runs its holding request again. -/
theorem stepRunsDecodedRequest : Obligations.StepRunsDecodedRequest := by
  refine ⟨fun p bytes i s s' hturn hdec hport => ?_, fun s ts i => ⟨?_, ?_, ?_, ?_⟩⟩
  · rw [step_of_turnPresents hturn, serveRequest_of_decodes s' hdec hport]
  · intro hsched hheld
    exact (step_of_schedule_cons hsched).trans (computeTurn_of_held hheld)
  · intro hsched hheld
    have hstep := (step_of_schedule_cons hsched).trans (writerTurn_of_held hheld)
    refine ⟨fun hstarts => hstep.trans (if_neg fun hwaits => ?_), fun hwire hregion => hstep.trans (if_pos ?_)⟩
    · obtain ⟨hcommand, hregion⟩ := (State.commandWaits_iff _ i).1 hwaits
      rcases hstarts with hrequest | hfree
      · rw [hcommand] at hrequest
        cases hrequest
      · exact hregion hfree
    · exact (State.commandWaits_iff _ i).2 ⟨hwire, hregion⟩
  · intro hsched hheld
    exact (step_of_schedule_cons hsched).trans (eventTurn_of_held hheld)
  · intro hsched hheld
    exact ⟨fun hidle => (step_of_schedule_cons hsched).trans (readerTurn_of_held hidle hheld),
      fun hpending => (step_of_schedule_cons hsched).trans (readerTurn_of_pending hpending)⟩

/-! ## Placing a table word -/

/-- The request of an operation goes to the port that lists the operation (10_state.md R54). -/
theorem buildRequest_port (o : Op) (n : BitVec 7) (data : List Byte) : (buildRequest o n data).port = o.port := by
  cases o <;> rfl

/-- A request that decodes is that of the operation its header selects (30_encoding.md R102). -/
theorem decodeRequest_ok {hdr : BitVec 11} {data : List Byte} {i : Instr} (h : decodeRequest hdr data = .ok i) :
    ∃ o, selectOp hdr = some o ∧ i = buildRequest o (headerN hdr) data := by
  unfold decodeRequest at h
  split at h
  · cases h
  · rename_i o ho
    split at h
    · exact ⟨o, ho, by cases h; rfl⟩
    · cases h

/-- The two header bytes of a table word hold its eleven bits (log entry 2). -/
theorem header_of_word (w : Nat) :
    BitVec.truncate 11 (BitVec.ofNat 8 (w / 256) ++ BitVec.ofNat 8 w) = BitVec.ofNat 11 w := by
  apply BitVec.eq_of_toNat_eq
  simp only [BitVec.truncate_eq_setWidth, BitVec.toNat_setWidth, BitVec.toNat_append, BitVec.toNat_ofNat]
  rw [← Nat.shiftLeft_add_eq_or_of_lt (by omega), Nat.shiftLeft_eq]
  omega

/-- A table word of at most 8 bits decodes as the Command Frame with that code. -/
theorem decodeTableWord_command {nbits w : Nat} {i : Instr} (hbits : nbits ≤ 8)
    (h : decodeTableWord nbits w = some i) : decodeCommand (encodeCommand (BitVec.ofNat 8 w) []) = i := by
  simp only [decodeTableWord, tableBytes, if_pos hbits, decodeBytes,
    if_pos (Laws.EncodedSize.encodeCommand_length _ _)] at h
  cases h
  rfl

/-- A longer table word decodes as a request, and its instruction belongs to the port the word is placed on. -/
theorem decodeTableWord_request {nbits w : Nat} {i : Instr} (hbits : ¬ nbits ≤ 8)
    (h : decodeTableWord nbits w = some i) :
    decodeBytes .request (tableBytes nbits w).2 = .ok i ∧
      i.port = ((selectOp (BitVec.ofNat 11 w)).map Op.port).getD .c := by
  have hdec : decodeBytes .request (tableBytes nbits w).2 = .ok i := by
    simp only [decodeTableWord, tableBytes, if_neg hbits] at h ⊢
    revert h
    cases decodeBytes .request _ <;> simp [Except.toOption]
  refine ⟨hdec, ?_⟩
  simp only [tableBytes, if_neg hbits, decodeBytes, header_of_word] at hdec
  split at hdec
  · obtain ⟨o, ho, rfl⟩ := decodeRequest_ok hdec
    simp [buildRequest_port, ho]
  · cases hdec

/-- The state in which nothing keeps port `p` from presenting a request: nothing holds there, and on port R no POLL is
pending (10_state.md R55). -/
def State.freed (s : State) : PortId → State
  | .c => { s with portC := { s.portC with held := none } }
  | .w => { s with portW := { s.portW with held := none } }
  | .e => { s with portE := { s.portE with held := none } }
  | .r => { s with u3 := { s.u3 with pstate := .idle }, portR := { s.portR with held := none } }

/-- A request word, once placed, is what its port presents next. -/
theorem turnPresents_withFetchWord {nbits w : Nat} (s : State) (hbits : ¬ nbits ≤ 8) :
    TurnPresents (((selectOp (BitVec.ofNat 11 w)).map Op.port).getD .c) (tableBytes nbits w).2
      (s.withFetchWord nbits w) (s.freed (((selectOp (BitVec.ofNat 11 w)).map Op.port).getD .c)) := by
  have hwire : (tableBytes nbits w).1 = .request := by simp only [tableBytes, if_neg hbits]
  simp only [State.withFetchWord, State.placeWord, hwire]
  cases ((selectOp (BitVec.ofNat 11 w)).map Op.port).getD .c with
  | c => exact ⟨_, _, rfl, rfl, rfl, rfl⟩
  | w => exact ⟨_, _, rfl, rfl, rfl, rfl⟩
  | e => exact ⟨_, _, rfl, rfl, rfl, rfl⟩
  | r => exact ⟨_, _, rfl, rfl, rfl, rfl, rfl⟩

/-- A command word, once placed, is the Command Frame the Writer processes next. -/
theorem step_withFetchWord_command {nbits w : Nat} (s : State) (hbits : nbits ≤ 8) :
    step (s.withFetchWord nbits w) = exec (decodeCommand (encodeCommand (BitVec.ofNat 8 w) []))
      { s.freed .w with env := { s.env with region := .free } } := by
  have hbytes : tableBytes nbits w = (.command, encodeCommand (BitVec.ofNat 8 w) []) := by
    simp only [tableBytes, if_pos hbits]
  simp only [State.withFetchWord, State.placeWord, hbytes, step, runTurn, performTurn, writerTurn, if_true,
    packBytes_toList_of_length (Laws.EncodedSize.encodeCommand_length _ _), State.freed]

/-- Settles O5: the placed word stands where the next step reads, and placing touches no unit but `pstate`. -/
theorem placedWordRunsNext : Obligations.PlacedWordRunsNext := by
  intro nbits w i s h
  by_cases hbits : nbits ≤ 8
  · refine ⟨{ s.freed .w with env := { s.env with region := .free } }, ?_, rfl, rfl, rfl, rfl, rfl, rfl, rfl, rfl,
      rfl, rfl⟩
    rw [step_withFetchWord_command s hbits, decodeTableWord_command hbits h]
  · obtain ⟨hdec, hport⟩ := decodeTableWord_request hbits h
    refine ⟨s.freed i.port, ?_, ?_⟩
    · rw [step_of_turnPresents (turnPresents_withFetchWord s hbits), ← hport, serveRequest_of_decodes _ hdec rfl]
    · cases i.port <;> exact ⟨rfl, rfl, rfl, rfl, rfl, rfl, rfl, rfl, rfl, rfl⟩

/-! ## Holds of a busy unit -/

/-- The List Tags response fits a frame exactly by the bound of 43_client_sequences.md R214. -/
theorem listFits_iff (s : State) : listFits s.params (s.env.presentUids s.params) = true ↔
    s.params.listBaseLen + 8 * s.presentSlots.length + 2 ≤ 63 := by
  simp [listFits, checksumOffset, listLen, Env.presentUids, filter_occupied]

/-- Every command runs on port W (43_client_sequences.md R210). -/
theorem Instr.port_of_command {i : Instr} (h : i.wire = .command) : i.port = .w := by
  cases i <;> simp_all [Instr.wire, Instr.port]

/-- A command that signs is not accepted while port C and U2 cannot take its CSIGN (60_exceptions.md R255). -/
theorem command_not_accepted {s : State} {i : Instr} (hwire : i.wire = .command)
    (hknown : ∀ code, i ≠ .cmdUnknown code)
    (hlist : ∀ seq, i = .cmdList seq → listFits s.params (s.env.presentUids s.params) = true)
    (hfree : s.u2Free = false) : s.accepts i = false := by
  cases i with
  | cmdList seq => simp [State.accepts, hlist seq rfl, hfree]
  | cmdUnknown code => exact absurd rfl (hknown code)
  | cmdWake | cmdAckC0 | cmdAckC3 | cmdRead | cmdWrite => exact hfree
  | crc32f | crcsign | csum | csign | pushr | pushn | wake | poll => cases hwire

/-- Settles O23: each of these requests is one its unit does not accept, and such a request holds. -/
theorem busyUnitsHoldRequests : Obligations.BusyUnitsHoldRequests := by
  refine ⟨fun n b s hbusy => ⟨?_, ?_⟩, fun n f s hbusy => ⟨fun hn => ?_, fun hn => ?_⟩,
    fun i s hwire hknown hlist hbusy => ?_⟩
  · exact exec_of_not_accepts (by simp [State.accepts, hbusy])
  · exact exec_of_not_accepts (by simp [State.accepts, hbusy])
  · exact exec_of_not_accepts (by simp [State.accepts, hbusy, hn])
  · exact exec_of_not_accepts (by simp [State.accepts, hbusy, hn])
  · have hfree : s.u2Free = false := by
      rw [Bool.eq_false_iff, Ne, State.u2Free_iff]
      rintro ⟨hu2, hportC⟩
      simp [hu2, hportC] at hbusy
    have hfits : ∀ seq, i = .cmdList seq → listFits s.params (s.env.presentUids s.params) = true :=
      fun seq h => (listFits_iff s).2 (hlist seq h)
    rw [exec_of_not_accepts (command_not_accepted hwire hknown hfits hfree), Instr.port_of_command hwire]
    rfl

/-! ## The STATUS view -/

/-- A non-empty queue has a positive length. -/
theorem not_isEmpty_eq_decide (q : List Frame) : (!q.isEmpty) = decide (0 < q.length) := by
  cases q <;> simp

/-- A queue within its depth has no room exactly when it is exactly full (10_state.md R40). -/
theorem not_hasRoom_of_fits {d : Depth} {q : List Frame} (h : d.fits q.length = true) :
    (!hasRoom d q) = decide (d.capacity? = some q.length) := by
  rw [hasRoom_iff]
  cases d with
  | unbounded => simp [Depth.fits, Depth.capacity?]
  | frames extra =>
    simp only [Depth.fits, Depth.capacity?, decide_eq_true_eq, Option.some.injEq] at h ⊢
    rw [← decide_not, decide_eq_decide]
    omega

/-- Seven flags below a zero bit: each stands at its place. -/
theorem getLsbD_flags (b0 b1 b2 b3 b4 b5 b6 : Bool) :
    let v := 0#1 ++ BitVec.ofBool b6 ++ BitVec.ofBool b5 ++ BitVec.ofBool b4 ++ BitVec.ofBool b3 ++
      BitVec.ofBool b2 ++ BitVec.ofBool b1 ++ BitVec.ofBool b0
    v.getLsbD 0 = b0 ∧ v.getLsbD 1 = b1 ∧ v.getLsbD 2 = b2 ∧ v.getLsbD 3 = b3 ∧ v.getLsbD 4 = b4 ∧
      v.getLsbD 5 = b5 ∧ v.getLsbD 6 = b6 ∧ v.getLsbD 7 = false := by
  simp only [BitVec.getLsbD_append, BitVec.getLsbD_ofBool]
  simp

/-- The bits of the STATUS view (10_state.md R43). -/
theorem State.status_getLsbD (s : State) :
    s.status.getLsbD 0 = s.u3.awake ∧ s.status.getLsbD 1 = s.u3.rqNe ∧ s.status.getLsbD 2 = s.u3.nqNe ∧
      s.status.getLsbD 3 = s.u3.deliverable ∧ s.status.getLsbD 4 = s.u3.pollPending ∧
      s.status.getLsbD 5 = s.rqFull ∧ s.status.getLsbD 6 = s.nqFull ∧ s.status.getLsbD 7 = false :=
  getLsbD_flags ..

/-- Settles O57: the derived predicates stand at their bits, and under the queue bounds each is the spec's. -/
theorem statusShowsTheDerivedPredicates : Obligations.StatusShowsTheDerivedPredicates := by
  intro s hrq hnq
  obtain ⟨h0, h1, h2, h3, h4, h5, h6, h7⟩ := s.status_getLsbD
  refine ⟨h0, h1.trans (not_isEmpty_eq_decide _), h2.trans (not_isEmpty_eq_decide _), h3.trans ?_, h4,
    h5.trans (not_hasRoom_of_fits hrq), h6.trans (not_hasRoom_of_fits hnq), h7⟩
  simp [U3.deliverable, U3.nqNe, U3.rqNe, not_isEmpty_eq_decide]

/-! ## Independence of the units -/

/-- A request of port C is one of the four operations of U1 and U2 (10_state.md R54). -/
theorem Instr.request_of_port_c {i : Instr} (hwire : i.wire = .request) (hport : i.port = .c) :
    (∃ n b, i = .crc32f n b ∨ i = .crcsign n b) ∨ (∃ n f, i = .csum n f ∨ i = .csign n f) := by
  cases i <;> simp_all [Instr.wire, Instr.port, Op.port]

/-- CRC32F and CRCSIGN depend on U1 and port C alone: a change `g` of the state that keeps U1 and does not meddle with
a hold or a completion on port C passes through them. -/
theorem exec_crc_commutes (g : State → State) {i : Instr} {s : State}
    (h : ∃ n b, i = .crc32f n b ∨ i = .crcsign n b) (hu1 : (g s).u1 = s.u1)
    (hhold : g (s.hold .c i) = (g s).hold .c i)
    (hdone : ∀ u r, g (({ s with u1 := u } : State).complete .c r) = ({ g s with u1 := u } : State).complete .c r) :
    exec i (g s) = mapNext g (exec i s) := by
  obtain ⟨n, b, rfl | rfl⟩ := h
  · simp only [exec, execCrc32f, hu1]
    split
    · exact congrArg _ hhold.symm
    · exact congrArg _ (hdone _ _).symm
  · simp only [exec, execCrcsign, hu1]
    split
    · exact congrArg _ hhold.symm
    · exact congrArg _ (hdone _ _).symm

/-- CSUM and CSIGN depend on U2 and port C alone, in the same sense. -/
theorem exec_checksum_commutes (g : State → State) {i : Instr} {s : State}
    (h : ∃ n f, i = .csum n f ∨ i = .csign n f) (hu2 : (g s).u2 = s.u2)
    (hrefuse : ∀ c, g (s.refuse .c c) = (g s).refuse .c c) (hhold : g (s.hold .c i) = (g s).hold .c i)
    (hdone : ∀ u r, g (({ s with u2 := u } : State).complete .c r) = ({ g s with u2 := u } : State).complete .c r) :
    exec i (g s) = mapNext g (exec i s) := by
  obtain ⟨n, f, rfl | rfl⟩ := h
  · simp only [exec, execCsum, hu2]
    split
    · exact congrArg _ (hrefuse _).symm
    · split
      · exact congrArg _ hhold.symm
      · exact congrArg _ (hdone _ _).symm
  · simp only [exec, execCsign, hu2]
    split
    · exact congrArg _ (hrefuse _).symm
    · split
      · exact congrArg _ hhold.symm
      · exact congrArg _ (hdone _ _).symm

/-- PUSHR, PUSHN, WAKE and POLL depend neither on U1 nor on U2 (10_state.md R37). -/
theorem exec_mux_independent {i : Instr} (s : State) (a : U1) (b : U2) (hwire : i.wire = .request)
    (hport : i.port ≠ .c) :
    exec i { s with u1 := a, u2 := b } = mapNext (fun t => { t with u1 := a, u2 := b }) (exec i s) := by
  cases i with
  | pushr n f =>
    simp only [exec, execPushr, State.pushReply]
    split <;> rfl
  | pushn n f =>
    simp only [exec, execPushn, State.pushNotification]
    split <;> rfl
  | wake n => rfl
  | poll n =>
    simp only [exec, execPoll]
    split <;> rfl
  | crc32f | crcsign | csum | csign => exact absurd rfl hport
  | cmdWake | cmdAckC0 | cmdAckC3 | cmdList | cmdRead | cmdWrite | cmdUnknown => cases hwire

/-- Settles O40: each operation's outcome depends on its own unit and port alone. -/
theorem unitsAreIndependent : Obligations.UnitsAreIndependent := by
  refine ⟨fun i s u hwire hport => ?_, fun i s a b => exec_mux_independent s a b,
    fun i s b h => exec_crc_commutes (fun t => { t with u2 := b }) h rfl rfl fun _ _ => rfl,
    fun i s a h => exec_checksum_commutes (fun t => { t with u1 := a }) h rfl (fun _ => rfl) rfl fun _ _ => rfl⟩
  rcases Instr.request_of_port_c hwire hport with hcrc | hsum
  · exact exec_crc_commutes (fun t => { t with u3 := u }) hcrc rfl rfl fun _ _ => rfl
  · exact exec_checksum_commutes (fun t => { t with u3 := u }) hsum rfl (fun _ => rfl) rfl fun _ _ => rfl

end Sys2Proof.Machine
end

section
/-!
PROOFS. The invariant of every step (10_state.md R49 and the rules `State.Inv` cites), and `awake` as a monotone bit. The
invariant falls into parts that concern one unit or the registry each; every operation of the model keeps each part
(`Keeps`), so a step can only matter to what the ports hold and who is inside the exclusive region.
-/

namespace Sys2Proof.Machine

/-! ## The parts of the invariant -/

/-- U1 between operations (10_state.md R32, R52). -/
def U1.Resting (u : U1) : Prop := u.cidx.toNat ≤ 12 ∧ u.busy = false

/-- U2 between operations (R35, R52). -/
def U2.Resting (u : U2) : Prop := u.slen.toNat ≤ 64 ∧ u.sidx = u.slen ∧ u.busy = false

/-- U3 is within its bounds (R49, R51). -/
def U3.Within (p : Params) (u : U3) : Prop :=
  p.rqDepth.fits u.rq.length = true ∧ p.nqDepth.fits u.nq.length = true ∧ u.bcnt ≤ p.backoffTicks

/-- The slot table and the backing files are as R56, R227 and R231 say. -/
structure RegistrySound (p : Params) (slots : Vector Slot 8) (files : List (Nat × Image)) : Prop where
  slotsExist : ∀ i : Fin 8, slots[i].present = true → i.val < p.numSlots
  uidCleared : ∀ i : Fin 8, slots[i].present = false → slots[i].uid = Vector.replicate 7 0
  uidsApart : ∀ i j : Fin 8, slots[i].present = true → slots[j].present = true → slots[i].uid = slots[j].uid → i = j
  handleOwned : ∀ i : Fin 8, slots[i].handle.isSome = slots[i].present
  handlesApart : ∀ i j : Fin 8, slots[i].present = true → slots[j].present = true →
    slots[i].handle = slots[j].handle → i = j
  filesOrdered : filesRise files

/-- Every port holds only requests of its own (R54, R55). -/
def State.HeldOwn (s : State) : Prop := ∀ p i, s.heldOn p = some i → i.port = p

/-- The port whose agent is inside the exclusive region. -/
def Region.port : Region → Option PortId
  | .free => none
  | .writer => some .w
  | .event => some .e

/-- Whoever is inside the exclusive region has a request that holds (70_reset_and_hazards.md R295). -/
def State.RegionHeld (s : State) : Prop := ∀ p, s.env.region.port = some p → (s.heldOn p).isSome = true

/-- The two region clauses of the invariant in one. -/
theorem State.regionHeld_iff (s : State) : s.RegionHeld ↔
    (s.env.region = .writer → s.portW.held.isSome = true) ∧ (s.env.region = .event → s.portE.held.isSome = true) := by
  unfold State.RegionHeld
  cases s.env.region <;> simp [Region.port, State.heldOn]

/-- The invariant is the conjunction of its parts. -/
theorem State.inv_iff (s : State) : s.Inv ↔
    s.u1.Resting ∧ s.u2.Resting ∧ s.u3.Within s.params ∧ RegistrySound s.params s.env.slots s.env.files ∧
      s.HeldOwn ∧ s.RegionHeld := by
  rw [State.regionHeld_iff]
  constructor
  · intro h
    exact ⟨⟨h.cidxRange, h.u1Idle⟩, ⟨h.slenRange, h.sidxDone, h.u2Idle⟩, ⟨h.rqFits, h.nqFits, h.bcntRange⟩,
      ⟨h.slotsExist, h.uidCleared, h.uidsApart, h.handleOwned, h.handlesApart, h.filesOrdered⟩, h.heldOwn,
      h.writerRegion, h.eventRegion⟩
  · rintro ⟨⟨hcidx, hidle1⟩, ⟨hslen, hsidx, hidle2⟩, ⟨hrq, hnq, hbcnt⟩, hreg, hheld, hwriter, hevent⟩
    exact ⟨hrq, hnq, hbcnt, hcidx, hslen, hsidx, hidle1, hidle2, hheld, hreg.slotsExist, hreg.uidCleared,
      hreg.uidsApart, hreg.handleOwned, hreg.handlesApart, hreg.filesOrdered, hwriter, hevent⟩

/-! ## The units -/

/-- Reset leaves U1 at rest (R58). -/
theorem U1.afterReset_resting (b : Block) : (U1.afterReset b).Resting := ⟨Nat.zero_le _, rfl⟩

/-- Reset leaves U2 at rest (R58). -/
theorem U2.afterReset_resting (f : Frame) : (U2.afterReset f).Resting := ⟨Nat.zero_le _, rfl, rfl⟩

/-- An empty queue fits every depth. -/
theorem fits_zero (d : Depth) : d.fits 0 = true := by
  cases d <;> simp [Depth.fits]

/-- What fits a depth still fits with one frame fewer. -/
theorem fits_of_succ {d : Depth} {n : Nat} (h : d.fits (n + 1) = true) : d.fits n = true := by
  cases d with
  | unbounded => rfl
  | frames extra =>
    simp only [Depth.fits, decide_eq_true_eq] at h ⊢
    omega

/-- Reset leaves U3 within every bound (R58). -/
theorem U3.afterReset_within (p : Params) : U3.afterReset.Within p :=
  ⟨fits_zero _, fits_zero _, Nat.zero_le _⟩

/-- CRC32F leaves U1 at rest. -/
theorem U1.crc32f_resting {u : U1} (b : Block) (h : u.Resting) : (u.crc32f b).Resting := ⟨by simp, h.2⟩

/-- CRCSIGN leaves U1 at rest. -/
theorem U1.crcsign_resting {u : U1} (b : Block) (h : u.Resting) : (u.crcsign b).Resting := ⟨by simp, h.2⟩

/-- CSUM in range leaves U2 at rest. -/
theorem U2.csum_resting {u : U2} {n : BitVec 7} (f : Frame) (hn : n.toNat ≤ 64) (h : u.Resting) :
    (u.csum n f).Resting := ⟨hn, rfl, h.2.2⟩

/-- CSIGN in range leaves U2 at rest. -/
theorem U2.csign_resting {u : U2} {n : BitVec 7} (f : Frame) (hn : n.toNat ≤ 64) (h : u.Resting) :
    (u.csign n f).Resting := ⟨hn, rfl, h.2.2⟩

/-- A reply pushed into a queue with room keeps U3 within its bounds (42_mux.md R182). -/
theorem U3.pushR_within {p : Params} {u : U3} (f : Frame) (hroom : hasRoom p.rqDepth u.rq = true) (h : u.Within p) :
    (u.pushR f).Within p := by
  obtain ⟨-, hnq, hbcnt⟩ := h
  exact ⟨by simpa [hasRoom_iff] using hroom, hnq, hbcnt⟩

/-- A notification pushed into a queue with room keeps U3 within its bounds. -/
theorem U3.pushN_within {p : Params} {u : U3} (f : Frame) (hroom : hasRoom p.nqDepth u.nq = true) (h : u.Within p) :
    (u.pushN f).Within p := by
  obtain ⟨hrq, -, hbcnt⟩ := h
  exact ⟨hrq, by simpa [hasRoom_iff] using hroom, hbcnt⟩

/-- A delivery takes a frame away and leaves `awake` (R191). -/
theorem U3.pollDeliver_keeps {p : Params} {u v : U3} {f : Frame} (h : u.pollDeliver = some (f, v)) :
    v.awake = u.awake ∧ (u.Within p → v.Within p) := by
  rcases u.pollDeliver_cases with ⟨g, rest, -, hnq, e⟩ | ⟨g, rest, -, hrq, e⟩ | ⟨-, -, e⟩
  · cases e.symm.trans h
    refine ⟨rfl, fun ⟨hr, hn, hb⟩ => ⟨hr, fits_of_succ ?_, hb⟩⟩
    rwa [hnq] at hn
  · cases e.symm.trans h
    refine ⟨rfl, fun ⟨hr, hn, hb⟩ => ⟨fits_of_succ ?_, hn, hb⟩⟩
    rwa [hrq] at hr
  · cases e.symm.trans h

/-! ## The registry -/

section Registry

variable {p : Params} {slots : Vector Slot 8} {files : List (Nat × Image)}

/-- The empty registry is sound (43_client_sequences.md R225). -/
theorem RegistrySound.initial (p : Params) : RegistrySound p Env.initial.slots Env.initial.files := by
  constructor <;> simp [Slot.empty, Env.initial, filesRise]

/-- A slot value that may be put at index `i` of a sound table: it is present only where a slot exists, cleared when
absent, owns a handle exactly when present, and shares neither uid nor handle with another present slot. -/
structure SlotFits (p : Params) (slots : Vector Slot 8) (i : Fin 8) (sl : Slot) : Prop where
  exists_of_present : sl.present = true → i.val < p.numSlots
  cleared : sl.present = false → sl.uid = Vector.replicate 7 0
  owned : sl.handle.isSome = sl.present
  apart : sl.present = true → ∀ j : Fin 8, j ≠ i → slots[j].present = true →
    slots[j].uid ≠ sl.uid ∧ slots[j].handle ≠ sl.handle

/-- A slot of the table after one slot is put. -/
theorem getElem_set_slot (slots : Vector Slot 8) (i j : Fin 8) (sl : Slot) :
    (slots.set i sl)[j] = if j = i then sl else slots[j] := by
  simp only [Fin.getElem_fin, Vector.getElem_set, Fin.ext_iff, eq_comm]

/-- Putting a slot that fits keeps the registry sound. -/
theorem RegistrySound.set (h : RegistrySound p slots files) {i : Fin 8} {sl : Slot} (hsl : SlotFits p slots i sl) :
    RegistrySound p (slots.set i sl) files where
  slotsExist j := by
    rw [getElem_set_slot]
    split
    · rename_i hj
      exact hj ▸ hsl.exists_of_present
    · exact h.slotsExist j
  uidCleared j := by
    rw [getElem_set_slot]
    split
    · exact hsl.cleared
    · exact h.uidCleared j
  uidsApart j k := by
    simp only [getElem_set_slot]
    split <;> split
    · simp_all
    · intro hj hk he
      exact absurd he.symm (hsl.apart hj k ‹_› hk).1
    · intro hj hk he
      exact absurd he (hsl.apart hk j ‹_› hj).1
    · exact h.uidsApart j k
  handleOwned j := by
    rw [getElem_set_slot]
    split
    · exact hsl.owned
    · exact h.handleOwned j
  handlesApart j k := by
    simp only [getElem_set_slot]
    split <;> split
    · simp_all
    · intro hj hk he
      exact absurd he.symm (hsl.apart hj k ‹_› hk).2
    · intro hj hk he
      exact absurd he (hsl.apart hk j ‹_› hj).2
    · exact h.handlesApart j k
  filesOrdered := h.filesOrdered

/-- Writing a backing file keeps the registry sound. -/
theorem RegistrySound.storeFile (h : RegistrySound p slots files) (handle : Nat) (img : Image) :
    RegistrySound p slots (putFile handle img files) :=
  { h with filesOrdered := (putFile_keeps_order handle img files h.filesOrdered).1 }

/-- Every slot index is scanned. -/
theorem mem_slotIndices (i : Fin 8) : i ∈ slotIndices := by
  revert i
  decide

/-- In a sound registry a present slot is an occupied one (R56). -/
theorem RegistrySound.occupied {e : Env} (h : RegistrySound p e.slots files) {i : Fin 8}
    (hi : e.slots[i].present = true) : e.occupied p i = true := by
  simp only [Env.occupied, hi, Bool.true_and]
  exact (slotExists_iff p i).2 (h.slotsExist i hi)

/-- A uid that the search does not find is held by no present slot. -/
theorem RegistrySound.uid_absent {e : Env} (h : RegistrySound p e.slots files) {uid : Uid}
    (hfind : e.findByUid p uid = none) {i : Fin 8} (hi : e.slots[i].present = true) : e.slots[i].uid ≠ uid := by
  have hnot := List.find?_eq_none.1 hfind i (mem_slotIndices i)
  simpa [h.occupied hi] using hnot

/-- A handle that is not owned is owned by no present slot. -/
theorem RegistrySound.handle_absent {e : Env} (h : RegistrySound p e.slots files) {handle : Nat}
    (howns : e.ownsHandle p handle = false) {i : Fin 8} (hi : e.slots[i].present = true) :
    e.slots[i].handle ≠ some handle := by
  have hnot := List.any_eq_false.1 howns i (mem_slotIndices i)
  simpa [h.occupied hi] using hnot

/-- An allocation at a free slot, of a uid and a handle nobody holds, keeps the registry sound (R226, R231). -/
theorem RegistrySound.fill {e : Env} (h : RegistrySound p e.slots e.files) {i : Fin 8} {blob : Image} {handle : Nat}
    (hfree : e.freeSlot p = some i) (huid : e.findByUid p (uidOf blob) = none)
    (hhandle : e.ownsHandle p handle = false) :
    RegistrySound p (e.fill i blob handle).slots (e.fill i blob handle).files :=
  h.set
    { exists_of_present := fun _ => (slotExists_iff p i).1 (Env.freeSlot_some hfree).2
      cleared := nofun
      owned := rfl
      apart := fun _ _ _ hj => ⟨h.uid_absent huid hj, h.handle_absent hhandle hj⟩ }

/-- A release keeps the registry sound (R227). -/
theorem RegistrySound.release {e : Env} (h : RegistrySound p e.slots e.files) (i : Fin 8) :
    RegistrySound p (e.release i).slots (e.release i).files := by
  have hslots := h.set (i := i) (sl := { e.slots[i] with present := false, uid := Vector.replicate 7 0, handle := none })
    { exists_of_present := nofun, cleared := fun _ => rfl, owned := rfl, apart := nofun }
  unfold Env.release
  dsimp only
  split
  · exact hslots.storeFile _ _
  · exact hslots

/-- A Write Block keeps the registry sound: the slot stays present with its handle, and its uid is still its own
(R230; 10_state.md R56). -/
theorem RegistrySound.writeBlock {s : State} (h : RegistrySound s.params s.env.slots s.env.files)
    (uid : Uid) (sector block : Byte) (payload : Block) :
    RegistrySound s.params (s.writeBlock uid sector block payload).env.slots
      (s.writeBlock uid sector block payload).env.files := by
  rcases s.writeBlock_cases uid sector block payload with ⟨-, e⟩ | ⟨i, hfind, -, uid', k, -, huid, e⟩
  · rwa [e]
  · obtain ⟨hpresent, -, -⟩ := Env.findByUid_some hfind
    rw [e]
    refine h.set
      { exists_of_present := fun _ => h.slotsExist i hpresent
        cleared := fun habsent => absurd hpresent (by simp_all)
        owned := h.handleOwned i
        apart := fun _ j hji hj => ⟨?_, fun he => hji (h.handlesApart j i hj hpresent he)⟩ }
    rcases huid with rfl | helsewhere
    · exact fun he => hji (h.uidsApart j i hj hpresent he)
    · exact Env.uidHeldElsewhere_eq_false.1 helsewhere j hji (h.occupied hj)

end Registry

/-! ## What every operation but reset keeps -/

/-- From `s` to `t` the parameters stay, `awake` is not cleared, and every unit and the registry stay as the invariant
asks. -/
structure Keeps (s t : State) : Prop where
  params : t.params = s.params
  awake : s.u3.awake = true → t.u3.awake = true
  u1 : s.u1.Resting → t.u1.Resting
  u2 : s.u2.Resting → t.u2.Resting
  u3 : s.u3.Within s.params → t.u3.Within s.params
  registry : RegistrySound s.params s.env.slots s.env.files → RegistrySound s.params t.env.slots t.env.files

theorem Keeps.refl (s : State) : Keeps s s := ⟨rfl, id, id, id, id, id⟩

theorem Keeps.trans {s u t : State} (h : Keeps s u) (h' : Keeps u t) : Keeps s t where
  params := h'.params.trans h.params
  awake := h'.awake ∘ h.awake
  u1 := h'.u1 ∘ h.u1
  u2 := h'.u2 ∘ h.u2
  u3 hu := h.params ▸ h'.u3 (h.params.symm ▸ h.u3 hu)
  registry hr := h.params ▸ h'.registry (h.params.symm ▸ h.registry hr)

/-- An update that keeps the units and the registry and touches neither what a port holds nor the exclusive region. -/
structure Progress (s t : State) : Prop where
  keeps : Keeps s t
  held : ∀ p, t.heldOn p = s.heldOn p
  region : t.env.region = s.env.region

theorem Progress.refl (s : State) : Progress s s := ⟨.refl s, fun _ => rfl, rfl⟩

theorem Progress.trans {s u t : State} (h : Progress s u) (h' : Progress u t) : Progress s t where
  keeps := h.keeps.trans h'.keeps
  held p := (h'.held p).trans (h.held p)
  region := h'.region.trans h.region

/-- What serving a request on port `p` may do: the units and the registry are kept, the other ports hold what they held,
port `p` holds at most a request of its own or the one it held, and who is inside the region afterwards was there before
or has a request that holds. -/
structure Served (p : PortId) (s t : State) : Prop where
  keeps : Keeps s t
  held : ∀ q, q ≠ p → t.heldOn q = s.heldOn q
  own : ∀ i, t.heldOn p = some i → i.port = p ∨ s.heldOn p = some i
  region : t.env.region = s.env.region ∨ t.RegionHeld

theorem Progress.served {s t : State} (h : Progress s t) (p : PortId) : Served p s t where
  keeps := h.keeps
  held q _ := h.held q
  own _ hi := .inr (h.held p ▸ hi)
  region := .inl h.region

/-- Progress before serving a request is part of serving it. -/
theorem Progress.before {p : PortId} {s u t : State} (h : Progress s u) (h' : Served p u t) : Served p s t where
  keeps := h.keeps.trans h'.keeps
  held q hq := (h'.held q hq).trans (h.held q)
  own i hi := (h'.own i hi).imp_right (h.held p ▸ ·)
  region := h'.region.imp_left (·.trans h.region)

/-- Completing a request. -/
theorem served_complete (p : PortId) (s : State) (r : Response) : Served p s (s.complete p r) where
  keeps := by constructor <;> simp
  held q hq := by rw [State.complete_heldOn, if_neg hq]
  own _ hi := by simp [State.complete_heldOn] at hi
  region := .inl (by simp)

/-- Holding a request of the port. -/
theorem served_hold (s : State) (i : Instr) : Served i.port s (s.hold i.port i) where
  keeps := by constructor <;> simp
  held q hq := by rw [State.hold_heldOn, if_neg hq]
  own j hj := by
    rw [State.hold_heldOn, if_pos rfl] at hj
    cases hj
    exact .inl rfl
  region := .inl (by simp)

/-! ## The shared operations -/

/-- An update of U1 that leaves it at rest. -/
theorem progress_u1 {s : State} {u : U1} (h : s.u1.Resting → u.Resting) : Progress s { s with u1 := u } :=
  ⟨{ Keeps.refl s with u1 := h }, fun _ => rfl, rfl⟩

/-- An update of U2 that leaves it at rest. -/
theorem progress_u2 {s : State} {u : U2} (h : s.u2.Resting → u.Resting) : Progress s { s with u2 := u } :=
  ⟨{ Keeps.refl s with u2 := h }, fun _ => rfl, rfl⟩

/-- An update of U3 that leaves it within its bounds and does not clear `awake`. -/
theorem progress_u3 {s : State} {u : U3} (hawake : s.u3.awake = true → u.awake = true)
    (h : s.u3.Within s.params → u.Within s.params) : Progress s { s with u3 := u } :=
  ⟨{ Keeps.refl s with awake := hawake, u3 := h }, fun _ => rfl, rfl⟩

/-- A reply pushed into a queue with room. -/
theorem progress_pushR {s : State} (f : Frame) (hroom : hasRoom s.params.rqDepth s.u3.rq = true) :
    Progress s { s with u3 := s.u3.pushR f } := progress_u3 id (U3.pushR_within f hroom)

/-- A notification pushed into a queue with room. -/
theorem progress_pushN {s : State} (f : Frame) (hroom : hasRoom s.params.nqDepth s.u3.nq = true) :
    Progress s { s with u3 := s.u3.pushN f } := progress_u3 id (U3.pushN_within f hroom)

/-- WAKE sets `awake` and nothing else of U3 (42_mux.md R186). -/
theorem progress_wakeUp (s : State) : Progress s { s with u3 := s.u3.wakeUp } := progress_u3 (fun _ => rfl) id

/-- A write of a backing file. -/
theorem progress_putFile (s : State) (handle : Nat) (img : Image) :
    Progress s { s with env := { s.env with files := putFile handle img s.env.files } } :=
  ⟨{ Keeps.refl s with registry := fun hr => hr.storeFile handle img }, fun p => by cases p <;> rfl, rfl⟩

/-- A figure creation's CRCSIGN, with its response on port C and its draws (43_client_sequences.md R219). -/
theorem progress_signDescriptor (s : State) (b : Block) (r : Response) (k : Nat) :
    Progress s { s with u1 := s.u1.crcsign b, portC := s.portC.emit r, drawn := k } :=
  ⟨{ Keeps.refl s with u1 := U1.crcsign_resting b }, fun p => by cases p <;> rfl, rfl⟩

/-- A client's CSIGN at an offset within the frame (41_checksum.md R161). -/
theorem progress_clientSign (s : State) (f : Frame) {n : Nat} (hn : n ≤ 63) : Progress s (s.clientSign f n) := by
  have hoffset : (BitVec.ofNat 7 n).toNat ≤ 64 := by
    rw [BitVec.toNat_ofNat]
    exact (Nat.mod_le _ _).trans (by omega)
  exact ⟨{ Keeps.refl s with u2 := U2.csign_resting f hoffset }, fun p => by cases p <;> rfl, rfl⟩

/-- The WAKE of a Wake command. -/
theorem progress_clientWake (s : State) : Progress s s.clientWake :=
  ⟨{ Keeps.refl s with awake := fun _ => rfl }, fun p => by cases p <;> rfl, rfl⟩

/-- A boundary call's result. -/
theorem progress_report (s : State) (r : ClientResult) : Progress s (s.report r) :=
  ⟨{ Keeps.refl s with }, fun p => by cases p <;> rfl, rfl⟩

/-- A Write Block touches the registry alone (43_client_sequences.md R230). -/
theorem progress_writeBlock (s : State) (uid : Uid) (sector block : Byte) (payload : Block) :
    Progress s (s.writeBlock uid sector block payload) := by
  have hreg := RegistrySound.writeBlock (s := s) (uid := uid) (sector := sector) (block := block) (payload := payload)
  rcases s.writeBlock_cases uid sector block payload with ⟨-, e⟩ | ⟨i, -, -, uid', k, -, -, e⟩
  · rw [e]
    exact .refl s
  · rw [e] at hreg ⊢
    exact ⟨{ Keeps.refl s with registry := hreg }, fun p => by cases p <;> rfl, rfl⟩

/-- One arbitration attempt (42_mux.md R191, R194). -/
theorem progress_deliver (s : State) : Progress s s.deliver := by
  rcases s.deliver_cases with ⟨-, e⟩ | ⟨-, f, u, htake, e⟩ | ⟨-, -, e⟩
  · rw [e]
    exact .refl s
  · obtain ⟨hawake, hwithin⟩ := U3.pollDeliver_keeps (p := s.params) htake
    rw [e]
    exact ⟨{ Keeps.refl s with awake := fun h => hawake.trans h, u3 := hwithin }, fun p => by cases p <;> rfl, rfl⟩
  · rw [e]
    exact progress_u3 id fun ⟨hrq, hnq, _⟩ => ⟨hrq, hnq, Nat.zero_le _⟩

/-- One tick of the backoff counter, which stops at `BACKOFF_TICKS` (10_state.md R51). -/
theorem progress_backoffTick (s : State) : Progress s s.backoffTick := by
  rcases s.backoffTick_cases with e | ⟨-, -, hlt, e⟩
  · rw [e]
    exact .refl s
  · rw [e]
    exact progress_u3 id fun ⟨hrq, hnq, _⟩ => ⟨hrq, hnq, hlt⟩

/-- PUSHR. -/
theorem served_pushReply (s : State) (n : BitVec 7) (f : Frame) : Served .w s (s.pushReply n f) := by
  rcases s.pushReply_cases n f with ⟨hroom, e⟩ | ⟨-, e⟩
  · rw [e]
    exact (progress_pushR f hroom).before (served_complete .w _ _)
  · rw [e]
    exact served_hold s (.pushr n f)

/-- PUSHN. -/
theorem served_pushNotification (s : State) (n : BitVec 7) (f : Frame) : Served .e s (s.pushNotification n f) := by
  rcases s.pushNotification_cases n f with ⟨hroom, e⟩ | ⟨-, e⟩
  · rw [e]
    exact (progress_pushN f hroom).before (served_complete .e _ _)
  · rw [e]
    exact served_hold s (.pushn n f)

/-- The PUSHR that ends a command: the Writer enters the region exactly when it holds. -/
theorem served_reply (s : State) (f : Frame) : Served .w s (s.reply f) := by
  rcases s.reply_cases f with ⟨hroom, e⟩ | ⟨-, e⟩
  · rw [e]
    exact (progress_pushR f hroom).before (served_complete .w _ _)
  · have hhold := served_hold s (.pushr 0 f)
    rw [e]
    exact ⟨{ hhold.keeps with }, hhold.held, hhold.own,
      .inr ((State.regionHeld_iff _).2 ⟨fun _ => rfl, nofun⟩)⟩

/-- Signing and replying. -/
theorem served_signAndReply (s : State) (f : Frame) {n : Nat} (hn : n ≤ 63) : Served .w s (s.signAndReply f n) :=
  (progress_clientSign s f hn).before (served_reply _ _)

/-- A client sequence that signs: it holds, or its body runs. -/
theorem served_clientSequence {i : Instr} {s t u : State} (hport : i.port = .w) (hbody : Served .w s u)
    (h : clientSequence i s (.next u) = .next t) : Served .w s t := by
  rcases clientSequence_cases i s (.next u) with ⟨-, e⟩ | ⟨-, e⟩
  · cases e.symm.trans h
    exact hbody
  · cases e.symm.trans h
    exact hport ▸ served_hold s i

/-- A notification's checksum lies within the frame (30_encoding.md R107). -/
theorem notificationOffset_le : notificationOffset ≤ 63 := by decide

/-- A notification: the Event agent is inside the region afterwards only if its PUSHN holds. -/
theorem served_notify (s : State) (added : Bool) (uid : Uid) : Served .e s (s.notify added uid) := by
  rcases s.notify_cases added uid with ⟨-, e⟩ | ⟨-, u, f, rfl, -, ⟨hroom, e⟩ | ⟨-, e⟩⟩
  · rw [e]
    exact (Progress.refl s).served .e
  · rw [e]
    exact ((progress_clientSign s f notificationOffset_le).trans (progress_pushN _ hroom)).before
      (served_complete .e _ _)
  · have hhold := (progress_clientSign s f notificationOffset_le).before
      (served_hold _ (.pushn 0 (signFrame f notificationOffset)))
    rw [e]
    cases s.params.eventKeepsRegion with
    | false => exact hhold
    | true =>
      exact ⟨{ hhold.keeps with }, hhold.held, hhold.own, .inr ((State.regionHeld_iff _).2 ⟨nofun, fun _ => rfl⟩)⟩

/-! ## The instructions -/

/-- The Wake response's checksum lies within the frame (00_scope.md R12). -/
theorem wake_offset_le (p : Params) : checksumOffset p.wakeLen ≤ 63 := by
  simp [checksumOffset, Params.wakeLen, Params.wakeBytes]

/-- CRC32F holds, or U1 does its work and the request completes. -/
theorem execCrc32f_served {n : BitVec 7} {b : Block} {s t : State} (h : execCrc32f n b s = .next t) :
    Served .c s t := by
  unfold execCrc32f at h
  split at h
  · cases h
    exact served_hold s (.crc32f n b)
  · cases h
    exact (progress_u1 (U1.crc32f_resting b)).before (served_complete .c _ _)

/-- CRCSIGN holds, or U1 does its work and the request completes. -/
theorem execCrcsign_served {n : BitVec 7} {b : Block} {s t : State} (h : execCrcsign n b s = .next t) :
    Served .c s t := by
  unfold execCrcsign at h
  split at h
  · cases h
    exact served_hold s (.crcsign n b)
  · cases h
    exact (progress_u1 (U1.crcsign_resting b)).before (served_complete .c _ _)

/-- CSUM is refused, holds, or completes with a length in range (41_checksum.md R161). -/
theorem execCsum_served {n : BitVec 7} {f : Frame} {s t : State} (h : execCsum n f s = .next t) : Served .c s t := by
  unfold execCsum at h
  split at h
  · cases h
    exact served_complete _ _ _
  · rename_i hn
    split at h
    · cases h
      exact served_hold s (.csum n f)
    · cases h
      exact (progress_u2 (U2.csum_resting (n := n) f (by omega))).before (served_complete .c _ _)

/-- CSIGN is refused, holds, or completes with a length in range (41_checksum.md R161). -/
theorem execCsign_served {n : BitVec 7} {f : Frame} {s t : State} (h : execCsign n f s = .next t) :
    Served .c s t := by
  unfold execCsign at h
  split at h
  · cases h
    exact served_complete _ _ _
  · rename_i hn
    split at h
    · cases h
      exact served_hold s (.csign n f)
    · cases h
      exact (progress_u2 (U2.csign_resting (n := n) f (by omega))).before (served_complete .c _ _)

/-- POLL holds, or is pending from then on with nothing held on port R (42_mux.md R189). -/
theorem execPoll_served {n : BitVec 7} {s t : State} (h : execPoll n s = .next t) : Served .r s t := by
  unfold execPoll at h
  split at h
  · cases h
    exact served_hold s (.poll n)
  · cases h
    refine ⟨{ Keeps.refl s with u3 := fun ⟨hrq, hnq, _⟩ => ⟨hrq, hnq, Nat.zero_le _⟩ }, fun q hq => ?_, nofun, .inl rfl⟩
    cases q with
    | c | w | e => rfl
    | r => exact absurd rfl hq

/-- CMD.LIST runs only when its checksum lies within the frame (43_client_sequences.md R222). -/
theorem execCmdList_served {seq : Byte} {s t : State} (h : execCmdList seq s = .next t) : Served .w s t := by
  unfold execCmdList at h
  dsimp only at h
  split at h
  · rename_i hfits
    exact served_clientSequence rfl (served_signAndReply s _ (of_decide_eq_true hfits)) h
  · cases h

/-- Running an instruction is serving a request on its port. -/
theorem exec_served {i : Instr} {s t : State} (h : exec i s = .next t) : Served i.port s t := by
  cases i with
  | crc32f n b => exact execCrc32f_served h
  | crcsign n b => exact execCrcsign_served h
  | csum n f => exact execCsum_served h
  | csign n f => exact execCsign_served h
  | pushr n f =>
    cases h
    exact served_pushReply s n f
  | pushn n f =>
    cases h
    exact served_pushNotification s n f
  | wake n =>
    cases h
    exact (progress_wakeUp s).before (served_complete .w _ _)
  | poll n => exact execPoll_served h
  | cmdWake seq =>
    exact served_clientSequence rfl
      ((progress_clientWake s).before (served_signAndReply _ _ (wake_offset_le s.params))) h
  | cmdAckC0 seq => exact served_clientSequence rfl (served_signAndReply s _ (by decide)) h
  | cmdAckC3 seq => exact served_clientSequence rfl (served_signAndReply s _ (by decide)) h
  | cmdList seq => exact execCmdList_served h
  | cmdRead seq uid sector block => exact served_clientSequence rfl (served_signAndReply s _ (by decide)) h
  | cmdWrite seq uid sector block payload =>
    exact served_clientSequence rfl
      ((progress_writeBlock s uid sector block payload).before (served_signAndReply _ _ (by decide))) h
  | cmdUnknown code =>
    cases h
    exact served_reply s unknownFrame

/-- A Command Frame is processed on port W (43_client_sequences.md R210). -/
theorem decodeCommand_port (cmd : List Byte) : (decodeCommand cmd).port = .w := by
  unfold decodeCommand
  dsimp only
  repeat' split
  all_goals rfl

/-- Serving a request's bytes. -/
theorem serveRequest_served {p : PortId} {bytes : List Byte} {s t : State} (h : serveRequest p bytes s = .next t) :
    Served p s t := by
  rcases serveRequest_cases p bytes s with ⟨-, e⟩ | e | ⟨i, -, -, e⟩ | ⟨i, -, rfl, e⟩
  · cases e.symm.trans h
    exact served_complete _ _ _
  · cases e.symm.trans h
  · cases e.symm.trans h
    exact served_complete _ _ _
  · exact exec_served (e.symm.trans h)

/-- An attach waits, or the registry takes a figure nobody has and the notification follows. -/
theorem attachFigure_served {blob : Image} {handle : Nat} {wait s t : State}
    (h : attachFigure blob handle wait s = .next t) : t = wait ∨ Served .e s t := by
  unfold attachFigure at h
  split at h
  · cases h
    exact .inr ((progress_report s .full).served .e)
  · rename_i i hfree
    split at h
    · cases h
    · rename_i huid
      split at h
      · cases h
      · rename_i hhandle
        split at h
        · cases h
          have hfill : Progress s { s with env := s.env.fill i blob handle } :=
            ⟨{ Keeps.refl s with
                registry := fun hr => hr.fill hfree (by simpa using huid) (Bool.eq_false_of_not_eq_true hhandle) },
              fun p => by cases p <;> rfl, rfl⟩
          exact .inr ((hfill.trans (progress_report _ _)).before (served_notify _ _ _))
        · cases h
          exact .inl rfl

/-- A detach waits, or the registry releases a slot and the notification follows. -/
theorem detachFigure_served {slot : Nat} {wait s t : State} (h : detachFigure slot wait s = .next t) :
    t = wait ∨ Served .e s t := by
  unfold detachFigure at h
  split at h
  · rename_i hslot
    split at h
    · split at h
      · split at h
        · cases h
          have hrelease : Progress s { s with env := s.env.release ⟨slot, hslot⟩ } :=
            ⟨{ Keeps.refl s with registry := fun hr => hr.release ⟨slot, hslot⟩ }, fun p => by cases p <;> rfl, rfl⟩
          exact .inr ((hrelease.trans (progress_report _ _)).before (served_notify _ _ _))
        · cases h
          exact .inl rfl
      · cases h
        exact .inr ((progress_report s _).served .e)
    · cases h
  · cases h

/-- A figure creation waits, or U1 signs and at most one backing file is written. -/
theorem createFigure_served {identityType identityId : List Byte} {handle : Nat} {storeOk : Bool} {wait s t : State}
    (h : createFigure identityType identityId handle storeOk wait s = .next t) : t = wait ∨ Served .c s t := by
  unfold createFigure at h
  split at h
  · cases h
    exact .inl rfl
  · extract_lets img d u at h
    have hsign : Progress s u := progress_signDescriptor s (descriptorOf img) (.ok (.block d)) (s.drawn + creationDraws)
    clear_value u
    split at h
    · cases h
      exact .inr ((hsign.trans ((progress_putFile u _ _).trans (progress_report _ _))).served .c)
    · cases h
      exact .inr ((hsign.trans (progress_report u _)).served .c)

/-! ## The turns -/

/-- What a turn other than `rst` does to the invariant's parts: it keeps the units and the registry, and with them that
ports hold their own requests and that who is inside the region has one that holds. -/
structure Moved (s t : State) : Prop where
  keeps : Keeps s t
  heldOwn : s.HeldOwn → t.HeldOwn
  regionHeld : s.HeldOwn → s.RegionHeld → t.RegionHeld

theorem Moved.trans {s u t : State} (h : Moved s u) (h' : Moved u t) : Moved s t where
  keeps := h.keeps.trans h'.keeps
  heldOwn := h'.heldOwn ∘ h.heldOwn
  regionHeld hown hin := h'.regionHeld (h.heldOwn hown) (h.regionHeld hown hin)

/-- A turn keeps the invariant. -/
theorem Moved.inv {s t : State} (h : Moved s t) (hs : s.Inv) : t.Inv := by
  rw [State.inv_iff] at hs ⊢
  obtain ⟨hu1, hu2, hu3, hreg, hown, hin⟩ := hs
  rw [h.keeps.params]
  exact ⟨h.keeps.u1 hu1, h.keeps.u2 hu2, h.keeps.u3 hu3, h.keeps.registry hreg, h.heldOwn hown,
    h.regionHeld hown hin⟩

theorem Progress.moved {s t : State} (h : Progress s t) : Moved s t where
  keeps := h.keeps
  heldOwn hown p i hi := hown p i (h.held p ▸ hi)
  regionHeld _ hin p hp := by
    rw [h.held p]
    exact hin p (h.region ▸ hp)

theorem Served.heldOwn {p : PortId} {s t : State} (h : Served p s t) (hown : s.HeldOwn) : t.HeldOwn := by
  intro q i hi
  by_cases hq : q = p
  · subst hq
    exact (h.own i hi).elim id (hown q i)
  · exact hown q i (h.held q hq ▸ hi)

/-- After serving a request on port `p` whoever is inside the region has a request that holds, if this is so of port `p`
where its agent was inside before. -/
theorem Served.regionHeld {p : PortId} {s t : State} (h : Served p s t) (hin : s.RegionHeld)
    (hp : t.env.region = s.env.region → t.env.region.port = some p → (t.heldOn p).isSome = true) : t.RegionHeld := by
  rcases h.region with hsame | hheld
  · intro q hq
    by_cases hqp : q = p
    · subst hqp
      exact hp hsame hq
    · rw [h.held q hqp]
      exact hin q (hsame ▸ hq)
  · exact hheld

/-- A request presented on a free port. -/
theorem Served.moved {p : PortId} {s t : State} (h : Served p s t) (hfree : s.heldOn p = none) : Moved s t where
  keeps := h.keeps
  heldOwn := h.heldOwn
  regionHeld _ hin := h.regionHeld hin fun hsame hp => by
    have hinside := hin p (hsame ▸ hp)
    rw [hfree] at hinside
    cases hinside

/-- A holding request run again, after which port `p`'s agent has left the region or its request still holds. -/
theorem moved_of_rerun {p : PortId} {i : Instr} {s u t : State} (hheld : s.heldOn p = some i)
    (hexec : exec i s = .next u)
    (hleaves : t = { u with env := { u.env with region := .free } } ∨
      t = u ∧ (u.env.region.port = some p → (u.heldOn p).isSome = true)) : Moved s t := by
  have hserved := exec_served hexec
  rcases hleaves with rfl | ⟨rfl, hinside⟩
  · exact ⟨{ hserved.keeps with }, hserved.heldOwn, fun _ _ _ => nofun⟩
  · refine ⟨hserved.keeps, hserved.heldOwn, fun hown hin => hserved.regionHeld hin fun _ => ?_⟩
    rwa [hown p i hheld]

/-- Nobody on port C is ever inside the region. -/
theorem Region.port_ne_c (r : Region) : r.port ≠ some .c := by cases r <;> nofun

/-- Nobody on port R is ever inside the region. -/
theorem Region.port_ne_r (r : Region) : r.port ≠ some .r := by cases r <;> nofun

/-- The Writer leaves the region, or its request still holds if it is inside. -/
theorem State.writerLeaves_cases (s : State) :
    s.writerLeaves = { s with env := { s.env with region := .free } } ∨
      s.writerLeaves = s ∧ (s.env.region.port = some .w → (s.heldOn .w).isSome = true) := by
  unfold State.writerLeaves
  split
  · exact .inl rfl
  · rename_i hstays
    refine .inr ⟨rfl, fun hp => ?_⟩
    cases hr : s.env.region <;> simp_all [Region.port, State.heldOn, Option.isSome_iff_ne_none]

/-- The Event agent leaves the region, or its request still holds if it is inside. -/
theorem State.eventLeaves_cases (s : State) :
    s.eventLeaves = { s with env := { s.env with region := .free } } ∨
      s.eventLeaves = s ∧ (s.env.region.port = some .e → (s.heldOn .e).isSome = true) := by
  unfold State.eventLeaves
  split
  · exact .inl rfl
  · rename_i hstays
    refine .inr ⟨rfl, fun hp => ?_⟩
    cases hr : s.env.region <;> simp_all [Region.port, State.heldOn, Option.isSome_iff_ne_none]

section Scripts

variable (s : State)

/-- The agent on port C takes the next entry of its script. -/
theorem progress_scriptC (l : List ComputeJob) : Progress s { s with portC := { s.portC with script := l } } :=
  ⟨{ Keeps.refl s with }, fun p => by cases p <;> rfl, rfl⟩

/-- The Writer takes the next entry of its script. -/
theorem progress_scriptW (l : List WriterJob) : Progress s { s with portW := { s.portW with script := l } } :=
  ⟨{ Keeps.refl s with }, fun p => by cases p <;> rfl, rfl⟩

/-- The Event agent takes the next entry of its script. -/
theorem progress_scriptE (l : List EventJob) : Progress s { s with portE := { s.portE with script := l } } :=
  ⟨{ Keeps.refl s with }, fun p => by cases p <;> rfl, rfl⟩

/-- The Reader takes the next entry of its script. -/
theorem progress_scriptR (l : List ReaderJob) : Progress s { s with portR := { s.portR with script := l } } :=
  ⟨{ Keeps.refl s with }, fun p => by cases p <;> rfl, rfl⟩

/-- A turn is taken from the schedule. -/
theorem progress_schedule (ts : List Turn) : Progress s { s with schedule := ts } :=
  ⟨{ Keeps.refl s with }, fun p => by cases p <;> rfl, rfl⟩

end Scripts

/-- Port C's turn. -/
theorem computeTurn_moved {s t : State} (h : computeTurn s = .next t) : Moved s t := by
  unfold computeTurn at h
  split at h
  · rename_i i hheld
    exact moved_of_rerun (p := .c) hheld h (.inr ⟨rfl, fun hp => absurd hp (Region.port_ne_c _)⟩)
  · rename_i hfree
    split at h
    · cases h
      exact (Progress.refl s).moved
    · exact ((progress_scriptC s _).before (serveRequest_served h)).moved hfree
    · rcases createFigure_served h with rfl | hserved
      · exact (Progress.refl t).moved
      · exact ((progress_scriptC s _).before hserved).moved hfree

/-- Port W's turn. -/
theorem writerTurn_moved {s t : State} (h : writerTurn s = .next t) : Moved s t := by
  unfold writerTurn at h
  split at h
  · rename_i i hheld
    split at h
    · cases h
      exact (Progress.refl s).moved
    · obtain ⟨u, hexec, rfl⟩ := mapNext_eq_next.1 h
      exact moved_of_rerun (p := .w) hheld hexec u.writerLeaves_cases
  · rename_i hfree
    split at h
    · cases h
      exact (Progress.refl s).moved
    · exact ((progress_scriptW s _).before (serveRequest_served h)).moved hfree
    · rename_i cmd rest hscript
      split at h
      · have hserved := exec_served h
        rw [decodeCommand_port] at hserved
        exact ((progress_scriptW s _).before hserved).moved hfree
      · cases h
        exact (Progress.refl s).moved

/-- Port E's turn. -/
theorem eventTurn_moved {s t : State} (h : eventTurn s = .next t) : Moved s t := by
  unfold eventTurn at h
  split at h
  · rename_i i hheld
    obtain ⟨u, hexec, rfl⟩ := mapNext_eq_next.1 h
    exact moved_of_rerun (p := .e) hheld hexec u.eventLeaves_cases
  · rename_i hfree
    split at h
    · cases h
      exact (Progress.refl s).moved
    · exact ((progress_scriptE s _).before (serveRequest_served h)).moved hfree
    · split at h
      · rcases attachFigure_served h with rfl | hserved
        · exact (Progress.refl t).moved
        · exact ((progress_scriptE s _).before hserved).moved hfree
      · cases h
        exact (Progress.refl s).moved
    · split at h
      · rcases detachFigure_served h with rfl | hserved
        · exact (Progress.refl t).moved
        · exact ((progress_scriptE s _).before hserved).moved hfree
      · cases h
        exact (Progress.refl s).moved

/-- Port R's turn. -/
theorem readerTurn_moved {s t : State} (h : readerTurn s = .next t) : Moved s t := by
  unfold readerTurn at h
  split at h
  · cases h
    exact (Progress.refl s).moved
  · split at h
    · rename_i i hheld
      exact moved_of_rerun (p := .r) hheld h (.inr ⟨rfl, fun hp => absurd hp (Region.port_ne_r _)⟩)
    · rename_i hfree
      split at h
      · cases h
        exact (Progress.refl s).moved
      · exact ((progress_scriptR s _).before (serveRequest_served h)).moved hfree
      · split at h
        · exact ((progress_scriptR s _).before (exec_served h)).moved hfree
        · cases h

/-- Every turn but `rst`. -/
theorem performTurn_moved {turn : Turn} {s t : State} (hrst : turn ≠ .rst) (h : performTurn turn s = .next t) :
    Moved s t := by
  cases turn with
  | compute => exact computeTurn_moved h
  | writer => exact writerTurn_moved h
  | event => exact eventTurn_moved h
  | reader => exact readerTurn_moved h
  | deliver =>
    cases h
    exact (progress_deliver s).moved
  | tick =>
    cases h
    exact (progress_backoffTick s).moved
  | hostCall c =>
    cases h
    exact (Progress.refl s).moved
  | rst => exact absurd rfl hrst

/-- The block by itself never asserts `rst`. -/
theorem State.idleTurn_ne_rst (s : State) : s.idleTurn ≠ .rst := by
  unfold State.idleTurn
  repeat' split
  all_goals nofun

/-- Every step but one that asserts `rst`. -/
theorem step_moved {s t : State} (hrst : s.resetNext = false) (h : step s = .next t) : Moved s t := by
  cases hsched : s.schedule with
  | nil => exact performTurn_moved s.idleTurn_ne_rst ((step_of_schedule_nil hsched).symm.trans h)
  | cons turn ts =>
    have hturn : turn ≠ .rst := by simpa [State.resetNext, hsched] using hrst
    exact (progress_schedule s ts).moved.trans
      (performTurn_moved hturn ((step_of_schedule_cons hsched).symm.trans h))

/-! ## The statements -/

/-- Asserting `rst` leaves the invariant whatever the units were doing (70_reset_and_hazards.md R281 to R284). -/
theorem State.assertReset_inv {s : State} (h : RegistrySound s.params s.env.slots s.env.files) : s.assertReset.Inv :=
  (State.inv_iff _).2 ⟨U1.afterReset_resting _, U2.afterReset_resting _, U3.afterReset_within _, h,
    fun p i hi => (by cases p <;> cases hi), fun _ => nofun⟩

/-- A step that asserts `rst`. -/
theorem step_of_resetNext {s : State} (h : s.resetNext = true) :
    ∃ ts, s.schedule = .rst :: ts ∧ step s = .next (State.assertReset { s with schedule := ts }) := by
  cases hsched : s.schedule with
  | nil => simp [State.resetNext, hsched] at h
  | cons turn ts =>
    obtain rfl : turn = .rst := by simpa [State.resetNext, hsched] using h
    exact ⟨ts, rfl, step_of_schedule_cons hsched⟩

/-- Settles O58: every turn but `rst` keeps each part of the invariant, and `rst` sets the units anew. -/
theorem everyStepKeepsTheInvariant : Obligations.EveryStepKeepsTheInvariant := by
  intro s t hinv hstep
  cases hrst : s.resetNext with
  | false => exact (step_moved hrst hstep).inv hinv
  | true =>
    obtain ⟨ts, -, hreset⟩ := step_of_resetNext hrst
    obtain ⟨-, -, -, hregistry, -, -⟩ := (State.inv_iff s).1 hinv
    cases hreset.symm.trans hstep
    exact State.assertReset_inv hregistry

/-- Settles O35: no turn but `rst` clears `awake`. -/
theorem awakeIsMonotone : Obligations.AwakeIsMonotone :=
  fun _ _ hstep hrst => (step_moved hrst hstep).keeps.awake

/-- Settles O59: after reset the units rest, the registry is empty and nothing holds. -/
theorem resetHasTheInvariant : Obligations.ResetHasTheInvariant :=
  (State.inv_iff _).2 ⟨U1.afterReset_resting _, U2.afterReset_resting _, U3.afterReset_within _, RegistrySound.initial _,
    fun p i hi => (by cases p <;> cases hi), fun _ => nofun⟩

/-- Settles O54: the stated values are those the reset state is built of. -/
theorem resetLeavesTheStatedValues : Obligations.ResetLeavesTheStatedValues := by
  refine ⟨rfl, rfl, rfl, rfl, rfl, rfl, rfl, rfl, rfl, fun i => ?_⟩
  show (Vector.replicate 8 Slot.empty)[i.val].present = false
  rw [Vector.getElem_replicate]
  rfl

end Sys2Proof.Machine
end

section
/-!
PROOFS. The statements of the family 30_encoding.md. A header is its operation code followed by `n`, so the mask reads
the code; a request's bytes are the header's eleven bits followed by the operand, so the encoder and the decoder of
requests are inverse; the bytes of a Command Frame are read back field by field.
-/

namespace Sys2Proof

open Machine

/-! ## The fields of a header -/

@[simp] theorem headerOp_append (op : BitVec 4) (n : BitVec 7) : headerOp (op ++ n) = op :=
  BitVec.extractLsb'_append_eq_left

@[simp] theorem headerN_append (op : BitVec 4) (n : BitVec 7) : headerN (op ++ n) = n :=
  BitVec.extractLsb'_append_eq_right

/-- A header has no bits but its two fields (30_encoding.md R100). -/
theorem headerOp_append_headerN (hdr : BitVec 11) : headerOp hdr ++ headerN hdr = hdr :=
  (BitVec.extractLsb'_append_extractLsb'_eq_extractLsb' rfl).trans BitVec.extractLsb'_eq_self

/-! ## Selecting an operation -/

theorem Op.mem_all (o : Op) : o ∈ Op.all := by
  cases o <;> decide

theorem Op.code_inj {o p : Op} (h : o.code = p.code) : o = p := by
  have hdiffer : ∀ o ∈ Op.all, ∀ p ∈ Op.all, o.code = p.code → o = p := by decide
  exact hdiffer o o.mem_all p p.mem_all h

/-- `op << 7` is the header with that operation code and `n = 0`. -/
theorem code_shifted (op : BitVec 4) : op.zeroExtend 11 <<< 7 = op ++ 0#7 := by
  revert op
  decide

/-- The match value of an operation is `op << 7` (30_encoding.md R102). -/
theorem Op.matchBits_eq_code_append (o : Op) : o.matchBits = o.code ++ 0#7 := by
  cases o <;> rfl

/-- The mask keeps the operation code and clears `n` (30_encoding.md R102). -/
theorem and_opMask (hdr : BitVec 11) : hdr &&& opMask = headerOp hdr ++ 0#7 := by
  have hmask : opMask = BitVec.allOnes 4 ++ 0#7 := rfl
  calc hdr &&& opMask = (headerOp hdr ++ headerN hdr) &&& (BitVec.allOnes 4 ++ 0#7) := by
        rw [headerOp_append_headerN, hmask]
    _ = headerOp hdr ++ 0#7 := by rw [BitVec.and_append, BitVec.and_allOnes, BitVec.and_zero]

/-- Mask and match compare the operation code (30_encoding.md R102). -/
theorem and_opMask_eq_code_append_iff (hdr : BitVec 11) (op : BitVec 4) :
    hdr &&& opMask = op ++ 0#7 ↔ headerOp hdr = op := by
  rw [and_opMask, BitVec.append_left_inj]

/-- A header selects the operation whose code it carries: codes tell the operations apart. -/
theorem selectOp_eq_some_iff (hdr : BitVec 11) (o : Op) : selectOp hdr = some o ↔ headerOp hdr = o.code := by
  have hmatches : ∀ p : Op, (hdr &&& opMask == p.matchBits) = true ↔ headerOp hdr = p.code := fun p => by
    rw [beq_iff_eq, Op.matchBits_eq_code_append, and_opMask_eq_code_append_iff]
  have hselected : ∀ p : Op, selectOp hdr = some p → headerOp hdr = p.code := fun p h =>
    (hmatches p).1 (List.find?_some (p := fun q : Op => hdr &&& opMask == q.matchBits) h)
  refine ⟨hselected o, fun h => ?_⟩
  cases hsel : selectOp hdr with
  | none => exact absurd ((hmatches o).2 h) (List.find?_eq_none.1 hsel o o.mem_all)
  | some p => rw [Op.code_inj ((hselected p hsel).symm.trans h)]

/-- A header selects nothing when its code is no operation's (30_encoding.md R120). -/
theorem selectOp_eq_none_iff (hdr : BitVec 11) : selectOp hdr = none ↔ ∀ o ∈ Op.all, headerOp hdr ≠ o.code := by
  simp only [Option.eq_none_iff_forall_ne_some, ne_eq, selectOp_eq_some_iff, Op.mem_all, forall_const]

/-- The field `n` takes no part in the selection (30_encoding.md R102). -/
theorem selectOp_congr {hdr hdr' : BitVec 11} (h : headerOp hdr = headerOp hdr') : selectOp hdr = selectOp hdr' :=
  Option.ext fun o => by rw [selectOp_eq_some_iff, selectOp_eq_some_iff, h]

/-- The eight codes of no operation (30_encoding.md R101, R120). -/
theorem code_reserved_iff (op : BitVec 4) : (∀ o ∈ Op.all, op ≠ o.code) ↔
    op ∈ [0b0010#4, 0b0011#4, 0b0110#4, 0b0111#4, 0b1100#4, 0b1101#4, 0b1110#4, 0b1111#4] := by
  revert op
  decide

/-- Settles O3: under the mask only the operation code of a header is left, and the eight codes differ. -/
theorem headerSelectionByMaskAndMatch : Obligations.HeaderSelectionByMaskAndMatch := by
  refine ⟨rfl, rfl, fun hdr o => ?_, fun op n m => ?_, fun hdr => ?_⟩
  · rw [code_shifted, selectOp_eq_some_iff]
    exact (and_opMask_eq_code_append_iff hdr o.code).symm
  · exact selectOp_congr ((headerOp_append op n).trans (headerOp_append op m).symm)
  · exact (selectOp_eq_none_iff hdr).trans (code_reserved_iff (headerOp hdr))

/-! ## The bytes of a request -/

/-- A header is its top three bits followed by its low eight. -/
theorem header_top_append_low (hdr : BitVec 11) : hdr.extractLsb' 8 3 ++ hdr.extractLsb' 0 8 = hdr :=
  (BitVec.extractLsb'_append_extractLsb'_eq_extractLsb' rfl).trans BitVec.extractLsb'_eq_self

/-- The second header byte holds three bits (log entry 2). -/
theorem truncate_zeroExtend_append (top : BitVec 3) (lo : Byte) :
    BitVec.truncate 11 (top.zeroExtend 8 ++ lo) = top ++ lo := by
  rw [BitVec.truncate_eq_setWidth, BitVec.setWidth_append]
  simp

theorem zeroExtend_lt_eight (top : BitVec 3) : (top.zeroExtend 8).toNat < 8 := by
  revert top
  decide

theorem zeroExtend_truncate_of_lt_eight {hi : Byte} (h : hi.toNat < 8) : (hi.truncate 3).zeroExtend 8 = hi :=
  BitVec.setWidth_setWidth_eq_self h

/-- The bytes of a request in the decoder's shape: the low eight bits of the header, its top three, the operand. -/
theorem encodeRequest_of_header {o : Op} {n : BitVec 7} {top : BitVec 3} {lo : Byte} (h : makeHeader o n = top ++ lo)
    (data : List Byte) : encodeRequest o n data = lo :: top.zeroExtend 8 :: data := by
  simp only [encodeRequest, h]
  rw [BitVec.extractLsb'_append_eq_right, BitVec.extractLsb'_append_eq_left]

/-- The five top bits of the second header byte are zero (log entry 2). -/
theorem decodeBytes_header (top : BitVec 3) (lo : Byte) (data : List Byte) :
    decodeBytes .request (lo :: top.zeroExtend 8 :: data) = decodeRequest (top ++ lo) data := by
  simp only [decodeBytes, if_pos (zeroExtend_lt_eight top), truncate_zeroExtend_append]

/-- Bytes that decode as a request have such a header. -/
theorem header_of_decodeBytes_ok {bytes : List Byte} {i : Instr} (h : decodeBytes .request bytes = .ok i) :
    ∃ top lo data, bytes = lo :: BitVec.zeroExtend 8 (top : BitVec 3) :: data ∧
      decodeRequest (top ++ lo) data = .ok i := by
  match bytes with
  | [] => cases h
  | [_] => cases h
  | lo :: hi :: data =>
    have hhi : hi.toNat < 8 := by
      by_contra hwide
      simp [decodeBytes, hwide] at h
    have htop := zeroExtend_truncate_of_lt_eight hhi
    refine ⟨hi.truncate 3, lo, data, by rw [htop], ?_⟩
    rw [← decodeBytes_header, htop]
    exact h

theorem decodeRequest_of_selects {hdr : BitVec 11} {data : List Byte} {o : Op} (hsel : selectOp hdr = some o)
    (hlen : data.length = o.operandLen) : decodeRequest hdr data = .ok (buildRequest o (headerN hdr) data) := by
  simp only [decodeRequest, hsel, if_pos hlen]

/-- A header and an operand decode to the request of the operation that has this code and this operand size
(30_encoding.md R113, R114). -/
theorem decodeRequest_ok_iff {hdr : BitVec 11} {data : List Byte} {i : Instr} : decodeRequest hdr data = .ok i ↔
    ∃ o n, hdr = makeHeader o n ∧ data.length = o.operandLen ∧ i = buildRequest o n data := by
  constructor
  · intro h
    obtain ⟨o, hsel, rfl⟩ := decodeRequest_ok h
    refine ⟨o, headerN hdr, ?_, ?_, rfl⟩
    · rw [makeHeader, ← (selectOp_eq_some_iff hdr o).1 hsel, headerOp_append_headerN]
    · by_contra hlen
      simp [decodeRequest, hsel, hlen] at h
  · rintro ⟨o, n, rfl, hlen, rfl⟩
    have hsel : selectOp (makeHeader o n) = some o := (selectOp_eq_some_iff _ o).2 (headerOp_append o.code n)
    rw [decodeRequest_of_selects hsel hlen, makeHeader, headerN_append]

/-- The requests' decoder inverts their encoder, both ways. -/
theorem decodeBytes_request_ok_iff {bytes : List Byte} {i : Instr} : decodeBytes .request bytes = .ok i ↔
    ∃ o n data, data.length = o.operandLen ∧ bytes = encodeRequest o n data ∧ i = buildRequest o n data := by
  constructor
  · intro h
    obtain ⟨top, lo, data, rfl, hreq⟩ := header_of_decodeBytes_ok h
    obtain ⟨o, n, hhdr, hlen, rfl⟩ := decodeRequest_ok_iff.1 hreq
    exact ⟨o, n, data, hlen, (encodeRequest_of_header hhdr.symm data).symm, rfl⟩
  · rintro ⟨o, n, data, hlen, rfl, rfl⟩
    have hhdr := header_top_append_low (makeHeader o n)
    rw [encodeRequest_of_header hhdr.symm, decodeBytes_header, hhdr]
    exact decodeRequest_ok_iff.2 ⟨o, n, rfl, hlen, rfl⟩

/-- The request of an operation with an operand of its size is written with that operand. -/
theorem encode_buildRequest {o : Op} {data : List Byte} (n : BitVec 7) (h : data.length = o.operandLen) :
    encode (buildRequest o n data) = encodeRequest o n data := by
  cases o with
  | crc32f | crcsign | csum | csign | pushr | pushn => exact congrArg (encodeRequest _ n) (packBytes_toList_of_length h)
  | wake | poll => rw [List.eq_nil_of_length_eq_zero h]; rfl

theorem buildRequest_wire (o : Op) (n : BitVec 7) (data : List Byte) : (buildRequest o n data).wire = .request := by
  cases o <;> rfl

/-- Every request is that of some operation with an operand of its size (20_memory.md R82). -/
theorem Instr.eq_buildRequest {i : Instr} (h : i.wire = .request) :
    ∃ o n data, data.length = Op.operandLen o ∧ i = buildRequest o n data := by
  cases i with
  | crc32f n b => exact ⟨.crc32f, n, b.toList, b.length_toList, by simp [buildRequest]⟩
  | crcsign n b => exact ⟨.crcsign, n, b.toList, b.length_toList, by simp [buildRequest]⟩
  | csum n f => exact ⟨.csum, n, f.toList, f.length_toList, by simp [buildRequest]⟩
  | csign n f => exact ⟨.csign, n, f.toList, f.length_toList, by simp [buildRequest]⟩
  | pushr n f => exact ⟨.pushr, n, f.toList, f.length_toList, by simp [buildRequest]⟩
  | pushn n f => exact ⟨.pushn, n, f.toList, f.length_toList, by simp [buildRequest]⟩
  | wake n => exact ⟨.wake, n, [], rfl, rfl⟩
  | poll n => exact ⟨.poll, n, [], rfl, rfl⟩
  | cmdWake | cmdAckC0 | cmdAckC3 | cmdList | cmdRead | cmdWrite | cmdUnknown => cases h

/-- Settles O2: bytes that decode as a request are those of an operation with an operand of its size. -/
theorem encodeOfDecodedRequestIsIdentity : Obligations.EncodeOfDecodedRequestIsIdentity := by
  intro bytes i h
  obtain ⟨o, n, data, hlen, rfl, rfl⟩ := decodeBytes_request_ok_iff.1 h
  exact ⟨buildRequest_wire o n data, encode_buildRequest n hlen⟩

/-! ## The bytes of a Command Frame -/

/-- Zero bytes after a Command Frame's fields read like none. -/
theorem getD_encodeCommand (code : Byte) (fields : List Byte) {k : Nat} (h : k < 64) :
    (encodeCommand code fields).getD k 0 = (0 :: 0 :: code :: fields).getD k 0 := by
  have hk : k < (encodeCommand code fields).length := by rwa [Laws.EncodedSize.encodeCommand_length]
  rw [List.getD_eq_getElem _ _ hk]
  exact (Vector.getElem_toList hk).trans (packBytes_getElem 64 _ k h)

/-- A slice is read byte by byte. -/
theorem sliceBytes_congr {l l' : List Byte} {start len : Nat}
    (h : ∀ k < start + len, l.getD k 0 = l'.getD k 0) : sliceBytes l start len = sliceBytes l' start len := by
  apply Vector.ext
  intro k hk
  simpa [sliceBytes, packBytes_getElem _ _ k hk] using h (start + k) (by omega)

/-- Every operand of a command lies within the frame (30_encoding.md R104, R115). -/
theorem decodeCommand_encodeCommand (code : Byte) (fields : List Byte) :
    decodeCommand (encodeCommand code fields) = decodeCommand (0 :: 0 :: code :: fields) := by
  have hbyte : ∀ k < 64, (encodeCommand code fields).getD k 0 = (0 :: 0 :: code :: fields).getD k 0 :=
    fun _ => getD_encodeCommand code fields
  have huid := sliceBytes_congr (start := 4) (len := 7) fun k hk => hbyte k (by omega)
  have hpayload := sliceBytes_congr (start := 13) (len := 16) fun k hk => hbyte k (by omega)
  simp only [decodeCommand, hbyte 2 (by decide), hbyte 3 (by decide), hbyte 11 (by decide), hbyte 12 (by decide),
    huid, hpayload]

/-- A Command Frame always decodes: it has 64 bytes. -/
theorem decodeBytes_encodeCommand (code : Byte) (fields : List Byte) :
    decodeBytes .command (encodeCommand code fields) = .ok (decodeCommand (0 :: 0 :: code :: fields)) := by
  rw [decodeBytes, if_pos (Laws.EncodedSize.encodeCommand_length code fields), decodeCommand_encodeCommand]

/-- A field that stands between others is sliced out. -/
theorem sliceBytes_of_eq_append {n start : Nat} {l : List Byte} (before : List Byte) (v : Vector Byte n)
    (after : List Byte) (h : l = before ++ (v.toList ++ after)) (hstart : start = before.length) :
    sliceBytes l start n = v := by
  subst h hstart
  apply Vector.toList_inj.1
  rw [sliceBytes, List.drop_left, packBytes_toList, List.append_assoc, List.take_left' v.length_toList]

/-- The bytes of a command that names a block: the fields up to the block number, then `rest` (30_encoding.md R115). -/
def blockCommand (code seq : Byte) (uid : Uid) (sector block : Byte) (rest : List Byte) : List Byte :=
  0 :: 0 :: code :: ([seq] ++ uid.toList ++ [sector, block] ++ rest)

theorem decodeBytes_encode_cmdRead (seq : Byte) (uid : Uid) (sector block : Byte) :
    decodeBytes .command (encode (.cmdRead seq uid sector block)) =
      .ok (decodeCommand (blockCommand 0xD2 seq uid sector block [])) := by
  rw [encode, decodeBytes_encodeCommand, blockCommand, List.append_nil]

theorem decodeBytes_encode_cmdWrite (seq : Byte) (uid : Uid) (sector block : Byte) (payload : Block) :
    decodeBytes .command (encode (.cmdWrite seq uid sector block payload)) =
      .ok (decodeCommand (blockCommand 0xD3 seq uid sector block payload.toList)) := by
  rw [encode, decodeBytes_encodeCommand, blockCommand]

theorem blockCommand_uid (code seq : Byte) (uid : Uid) (sector block : Byte) (rest : List Byte) :
    sliceBytes (blockCommand code seq uid sector block rest) 4 7 = uid :=
  sliceBytes_of_eq_append [0, 0, code, seq] uid (sector :: block :: rest) (by simp [blockCommand]) rfl

theorem blockCommand_sector (code seq : Byte) (uid : Uid) (sector block : Byte) (rest : List Byte) :
    (blockCommand code seq uid sector block rest).getD 11 0 = sector := by
  simp [blockCommand]

theorem blockCommand_block (code seq : Byte) (uid : Uid) (sector block : Byte) (rest : List Byte) :
    (blockCommand code seq uid sector block rest).getD 12 0 = block := by
  simp [blockCommand, List.getElem?_append_right]

theorem blockCommand_payload (code seq : Byte) (uid : Uid) (sector block : Byte) (payload : Block) :
    sliceBytes (blockCommand code seq uid sector block payload.toList) 13 16 = payload :=
  sliceBytes_of_eq_append (0 :: 0 :: code :: seq :: (uid.toList ++ [sector, block])) payload []
    (by simp [blockCommand]) (by simp)

/-- A command code that no row names (30_encoding.md R119). -/
theorem decodeCommand_of_unknown {code : Byte} (h : (Instr.cmdUnknown code).wf = true) (fields : List Byte) :
    decodeCommand (0 :: 0 :: code :: fields) = .cmdUnknown code := by
  have hcode : code ∉ commandCodes := by simpa [Instr.wf] using h
  simp only [commandCodes, List.mem_cons, not_or] at hcode
  obtain ⟨hB0, hC0, hC3, hD0, hD2, hD3, -⟩ := hcode
  exact (if_neg hB0).trans <| (if_neg hC0).trans <| (if_neg hC3).trans <| (if_neg hD0).trans <|
    (if_neg hD2).trans (if_neg hD3)

theorem decodeCommand_of_read {cmd : List Byte} (h : cmd.getD 2 0 = 0xD2) : decodeCommand cmd =
    .cmdRead (cmd.getD 3 0) (sliceBytes cmd 4 7) (cmd.getD 11 0) (cmd.getD 12 0) := by
  simp only [decodeCommand, h]
  rfl

theorem decodeCommand_of_write {cmd : List Byte} (h : cmd.getD 2 0 = 0xD3) : decodeCommand cmd =
    .cmdWrite (cmd.getD 3 0) (sliceBytes cmd 4 7) (cmd.getD 11 0) (cmd.getD 12 0) (sliceBytes cmd 13 16) := by
  simp only [decodeCommand, h]
  rfl

/-- A command is read back from its Command Frame, by its code and then field by field (30_encoding.md R115, R119). -/
theorem decodeBytes_encode_of_command {i : Instr} (hwf : i.wf = true) (hwire : i.wire = .command) :
    decodeBytes .command (encode i) = .ok i := by
  cases i with
  | cmdWake seq | cmdAckC0 seq | cmdAckC3 seq | cmdList seq => exact decodeBytes_encodeCommand _ [seq]
  | cmdUnknown code => rw [encode, decodeBytes_encodeCommand, decodeCommand_of_unknown hwf]
  | cmdRead seq uid sector block =>
    rw [decodeBytes_encode_cmdRead, decodeCommand_of_read rfl, blockCommand_uid, blockCommand_sector,
      blockCommand_block]
    rfl
  | cmdWrite seq uid sector block payload =>
    rw [decodeBytes_encode_cmdWrite, decodeCommand_of_write rfl, blockCommand_uid, blockCommand_sector,
      blockCommand_block, blockCommand_payload]
    rfl
  | crc32f | crcsign | csum | csign | pushr | pushn | wake | poll => cases hwire

/-- Settles O1: requests by the inverse of their encoder, commands field by field. -/
theorem decodeOfEncodeIsIdentity : Obligations.DecodeOfEncodeIsIdentity := by
  intro i hwf
  cases hwire : i.wire with
  | request =>
    obtain ⟨o, n, data, hlen, rfl⟩ := Instr.eq_buildRequest hwire
    exact decodeBytes_request_ok_iff.2 ⟨o, n, data, hlen, encode_buildRequest n hlen, rfl⟩
  | command => exact decodeBytes_encode_of_command hwf hwire

/-- Settles O4: the decoder is run on the seven words. -/
theorem writtenOutWordsDecode : Obligations.WrittenOutWordsDecode := by
  unfold Obligations.WrittenOutWordsDecode
  decide

end Sys2Proof
end

section
/-!
PROOFS. The statements of the family 40_crc32.md. The generation rule of the table is additive over exclusive-or, and so
are the byte step and the CRC of a byte string; linearity and the distance to the textbook CRC-32 follow from that one
fact. A signed block is its first twelve bytes followed by the bytes of their CRC. A byte-serial unit's registers after
`k` ticks are those of `serial` at `k`.
-/

namespace Sys2Proof.Machine

/-! ## The table ROM -/

/-- Pieces of 32 indices follow each other without a gap. -/
theorem flatMap_range'_eq_range (n : Nat) :
    (List.range n).flatMap (fun k => List.range' (32 * k) 32) = List.range (32 * n) := by
  induction n with
  | zero => rfl
  | succ n ih =>
    rw [List.range_succ, List.flatMap_append, ih, List.flatMap_singleton, List.range_eq_range', List.range_eq_range',
      Nat.mul_succ, ← List.range'_append_1, Nat.zero_add]

/-- Piece `k` of the table by the generation rule: 32 entries (40_crc32.md R141). -/
def rulePiece (k : Nat) : List Word32 :=
  (List.range' (32 * k) 32).map fun i => tableRule (BitVec.ofNat 8 i)

theorem crcTable_pieces_eq_rulePieces :
    [crcTableA, crcTableB, crcTableC, crcTableD, crcTableE, crcTableF, crcTableG, crcTableH] =
      (List.range 8).map rulePiece := by decide

theorem crcTable_eq_map_tableRule : crcTable = (List.range 256).map fun i => tableRule (BitVec.ofNat 8 i) := by
  calc crcTable
      = [crcTableA, crcTableB, crcTableC, crcTableD, crcTableE, crcTableF, crcTableG, crcTableH].flatten := by
        simp [crcTable]
    _ = (List.range 8).flatMap rulePiece := by rw [crcTable_pieces_eq_rulePieces, List.flatMap_def]
    _ = _ := by rw [← flatMap_range'_eq_range 8, List.map_flatMap]; rfl

/-- Settles O8: the table lists the entries of the generation rule in index order. -/
theorem crcTableIsTheGeneratedOne : Obligations.CrcTableIsTheGeneratedOne := by
  intro i
  simp [crcEntry, crcTable_eq_map_tableRule, i.isLt]

/-! ## The byte step is additive -/

/-- What a round of the generation rule adds when `bit` leaves the register (40_crc32.md R141). -/
def feedback (bit : Bool) : Word32 := if bit then Config.crcPolyReflected else 0

theorem tableRound_eq_shift_xor_feedback (c : Word32) : tableRound c = c >>> 1 ^^^ feedback (c.getLsbD 0) := by
  rw [tableRound, feedback]
  split
  · rfl
  · exact BitVec.xor_zero.symm

theorem feedback_xor (p q : Bool) : feedback (p ^^ q) = feedback p ^^^ feedback q := by
  cases p <;> cases q <;> simp [feedback]

theorem tableRound_xor (a b : Word32) : tableRound (a ^^^ b) = tableRound a ^^^ tableRound b := by
  simp only [tableRound_eq_shift_xor_feedback, BitVec.ushiftRight_xor_distrib, BitVec.getLsbD_xor, feedback_xor]
  ac_rfl

theorem tableRound_iterate_xor (n : Nat) (a b : Word32) :
    tableRound^[n] (a ^^^ b) = tableRound^[n] a ^^^ tableRound^[n] b :=
  (Function.Semiconj₂.iterate tableRound_xor n).eq a b

theorem tableRule_xor (a b : Byte) : tableRule (a ^^^ b) = tableRule a ^^^ tableRule b := by
  have hzext : (a ^^^ b).zeroExtend 32 = a.zeroExtend 32 ^^^ b.zeroExtend 32 := BitVec.setWidth_xor
  rw [tableRule, hzext]
  exact tableRound_iterate_xor 8 _ _

theorem ruleStep_xor (c c' : Word32) (b b' : Byte) :
    ruleStep (c ^^^ c') (b ^^^ b') = ruleStep c b ^^^ ruleStep c' b' := by
  have hindex : (c ^^^ c').extractLsb' 0 8 ^^^ (b ^^^ b') =
      (c.extractLsb' 0 8 ^^^ b) ^^^ (c'.extractLsb' 0 8 ^^^ b') := by
    rw [BitVec.extractLsb'_xor]; ac_rfl
  simp only [ruleStep, hindex, tableRule_xor, BitVec.ushiftRight_xor_distrib]
  ac_rfl

/-- The CRC of byte strings of one length is additive in the start value and the bytes together (R145). -/
theorem ruleCrc_xor (c c' : Word32) (l l' : List Byte) (h : l.length = l'.length) :
    ruleCrc (c ^^^ c') (List.zipWith (· ^^^ ·) l l') = ruleCrc c l ^^^ ruleCrc c' l' := by
  induction l generalizing c c' l' with
  | nil => cases l' with
    | nil => rfl
    | cons => cases h
  | cons b l ih => cases l' with
    | nil => cases h
    | cons b' l' =>
      simp only [ruleCrc, List.zipWith_cons_cons, List.foldl_cons, ruleStep_xor] at ih ⊢
      exact ih _ _ _ (Nat.succ.inj h)

theorem ruleCrc_zeros (n : Nat) : ruleCrc 0 (List.replicate n 0) = 0 := by
  have hstep : ruleStep 0 0 = 0 := by decide
  induction n with
  | zero => rfl
  | succ n ih => rwa [List.replicate_succ, ruleCrc, List.foldl_cons, hstep]

/-! ## The CRC of a block -/

theorem crcStep_eq_ruleStep : crcStep = ruleStep := by
  funext c b
  rw [crcStep, crcTableIsTheGeneratedOne, ruleStep]

/-- The accumulator ends at the CRC of the window by the rules R141 and R142. -/
theorem crcAccumulate_eq_ruleCrc (b : Block) : crcAccumulate b = ruleCrc 0 (b.toList.take 12) := by
  rw [crcAccumulate, crcStep_eq_ruleStep]
  rfl

/-- The final exclusive-or is with zero (00_scope.md R10). -/
theorem figureCrc_eq_crcAccumulate (b : Block) : figureCrc b = crcAccumulate b := BitVec.xor_zero

theorem figureCrc_eq_ruleCrc (b : Block) : figureCrc b = ruleCrc 0 (b.toList.take 12) :=
  (figureCrc_eq_crcAccumulate b).trans (crcAccumulate_eq_ruleCrc b)

theorem xorBlock_toList (a b : Block) : (xorBlock a b).toList = List.zipWith (· ^^^ ·) a.toList b.toList := by
  simp [xorBlock]

/-- Blocks that agree below `m` have the same first `m` bytes. -/
theorem take_eq_of_getElem_eq {b b' : Block} {m : Nat} (hm : m ≤ 16)
    (h : ∀ (k : Nat) (hk : k < m), b[k] = b'[k]) : b.toList.take m = b'.toList.take m := by
  apply List.ext_getElem
  · simp
  · intro k hk _
    have hkm : k < m := by simp at hk; omega
    simpa using h k hkm

theorem take_eq_replicate_zero {b : Block} {j : Nat} (hj : j ≤ 16)
    (h : ∀ k, (hk : k < 16) → k < j → b[k] = 0) : b.toList.take j = List.replicate j 0 := by
  have hzero : b.toList.take j = (Vector.replicate 16 0 : Block).toList.take j :=
    take_eq_of_getElem_eq hj fun k hk => (h k (by omega) hk).trans (Vector.getElem_replicate _).symm
  rw [hzero, Vector.toList_replicate, List.take_replicate, Nat.min_eq_left hj]

/-- Leading zero bytes keep the accumulator zero (R145). -/
theorem crcStep_leading_zeros {b : Block} {j : Nat} (hj : j ≤ 16)
    (h : ∀ k, (hk : k < 16) → k < j → b[k] = 0) : (b.toList.take j).foldl crcStep 0 = 0 := by
  rw [take_eq_replicate_zero hj h, crcStep_eq_ruleStep]
  exact ruleCrc_zeros j

/-- Settles O12: the byte step is additive and keeps zero at zero. -/
theorem crcIsLinear : Obligations.CrcIsLinear := by
  refine ⟨?_, fun a b => ?_, fun b j hj h => crcStep_leading_zeros (by omega) h⟩
  · rw [figureCrc_eq_crcAccumulate]
    exact crcStep_leading_zeros (by decide) fun k hk _ => Vector.getElem_replicate hk
  · simp only [figureCrc_eq_ruleCrc, xorBlock_toList, List.take_zipWith]
    exact ruleCrc_xor 0 0 _ _ (by simp)

/-- A start value other than zero adds its own CRC of as many zero bytes. -/
theorem ruleCrc_eq_xor_zeros (c : Word32) (l : List Byte) :
    ruleCrc c l = ruleCrc c (List.replicate l.length 0) ^^^ ruleCrc 0 l := by
  have hbytes : List.zipWith (· ^^^ ·) (List.replicate l.length 0) l = l := by
    apply List.ext_getElem <;> simp
  rw [← ruleCrc_xor c 0 _ _ List.length_replicate, hbytes]
  exact congrArg (ruleCrc · l) BitVec.xor_zero.symm

/-- Settles O13: the constant is the textbook CRC-32 of twelve zero bytes. -/
theorem crcDiffersFromTextbookByAConstant : Obligations.CrcDiffersFromTextbookByAConstant := by
  intro b
  have hlen : (b.toList.take 12).length = 12 := by simp
  have hzeros : textbookCrc (List.replicate 12 0) = 0x7BD5C66F#32 := by decide
  calc textbookCrc (b.toList.take 12)
      = textbookCrc (List.replicate 12 0) ^^^ figureCrc b := by
        rw [textbookCrc, ruleCrc_eq_xor_zeros, hlen, figureCrc_eq_ruleCrc, textbookCrc]; ac_rfl
    _ = figureCrc b ^^^ 0x7BD5C66F#32 := by rw [hzeros, BitVec.xor_comm]

/-! ## The requests -/

/-- CRC32F from a state in which U1 is not busy: U1 does its work and port C completes (R143). -/
theorem exec_crc32f_of_not_busy (n : BitVec 7) (b : Block) {s : State} (h : s.u1.busy = false) :
    exec (.crc32f n b) s =
      .next (({ s with u1 := s.u1.crc32f b } : State).complete .c (.ok (.crc (figureCrc b)))) := by
  simp [exec, execCrc32f, h]

/-- CRCSIGN likewise (R147). -/
theorem exec_crcsign_of_not_busy (n : BitVec 7) (b : Block) {s : State} (h : s.u1.busy = false) :
    exec (.crcsign n b) s =
      .next (({ s with u1 := s.u1.crcsign b } : State).complete .c (.ok (.block (signBlock b)))) := by
  simp [exec, execCrcsign, h]

theorem U1.crc32f_of_not_busy {u : U1} (b : Block) (h : u.busy = false) :
    u.crc32f b = { crc := ruleCrc 0 (b.toList.take 12), cidx := 12, blk := b, busy := false } := by
  rw [U1.crc32f, crcAccumulate_eq_ruleCrc, h]
  rfl

/-- Settles O9: U1's accumulator and the response are the CRC of the window. -/
theorem crc32fCompletes : Obligations.Crc32fCompletes := by
  intro n b s h
  rw [exec_crc32f_of_not_busy n b h, U1.crc32f_of_not_busy b h, figureCrc_eq_ruleCrc]
  rfl

/-- Blocks with the same window have the same CRC (R144). -/
theorem figureCrc_congr {b b' : Block} (h : b.toList.take 12 = b'.toList.take 12) : figureCrc b = figureCrc b' := by
  rw [figureCrc_eq_ruleCrc, figureCrc_eq_ruleCrc, h]

/-- Settles O11: only the window enters the CRC. -/
theorem crcWindowLaw : Obligations.CrcWindowLaw := by
  intro b b' n n' s h hidle
  have hcrc : figureCrc b = figureCrc b' := figureCrc_congr (take_eq_of_getElem_eq (by decide) h)
  refine ⟨_, _, exec_crc32f_of_not_busy n b hidle, exec_crc32f_of_not_busy n' b' hidle, ?_, ?_⟩
  · simp [hcrc]
  · simpa [figureCrc_eq_crcAccumulate] using hcrc

/-! ## The signed block -/

/-- A block is its window followed by its last four bytes (40_crc32.md R147). -/
theorem block_toList_eq_window_append (b : Block) : b.toList = b.toList.take 12 ++ [b[12], b[13], b[14], b[15]] := by
  have hlast : b.toList.drop 12 = [b[12], b[13], b[14], b[15]] := by
    apply List.ext_getElem
    · simp
    · intro k _ hk
      simp only [List.length_cons, List.length_nil] at hk
      interval_cases k <;> simp
  rw [← hlast, List.take_append_drop]

/-- Signing keeps the window and stores the CRC behind it, most significant byte first (R147, log entry 10). -/
theorem signBlock_toList (b : Block) : (signBlock b).toList = b.toList.take 12 ++
    [byteOf (figureCrc b) 3, byteOf (figureCrc b) 2, byteOf (figureCrc b) 1, byteOf (figureCrc b) 0] := by
  have hwindow : (b.toList.take 12).length = 12 := by simp
  have hstores : (signBlock b).toList = (((b.toList.set 12 (byteOf (figureCrc b) 3)).set 13
      (byteOf (figureCrc b) 2)).set 14 (byteOf (figureCrc b) 1)).set 15 (byteOf (figureCrc b) 0) := by
    simp [signBlock, storeCrc, Config.crcStoreOrder]
  rw [hstores, block_toList_eq_window_append b]
  simp [hwindow]

/-- Settles O10: U1 and the response hold the signed block. -/
theorem crcsignCompletes : Obligations.CrcsignCompletes := by
  intro n b s h
  refine ⟨signBlock b, ?_, ?_⟩
  · rw [signBlock_toList, figureCrc_eq_ruleCrc]
    rfl
  · rw [exec_crcsign_of_not_busy n b h, U1.crcsign, U1.crc32f_of_not_busy b h]
    rfl

/-- Signing does not change the CRC: it leaves the window (R148). -/
theorem figureCrc_signBlock (b : Block) : figureCrc (signBlock b) = figureCrc b :=
  figureCrc_congr (by rw [signBlock_toList, List.take_left' (by simp)])

theorem beWord_eq_append (a b c d : Byte) : beWord a b c d = a ++ b ++ c ++ d := by
  rw [← BitVec.setWidth_eq (a ++ b ++ c ++ d), BitVec.setWidth_append_append_append_eq_shiftLeft_setWidth_or]
  rfl

/-- A word reads from its four bytes, most significant first (R148). -/
theorem beWord_byteOf (v : Word32) : beWord (byteOf v 3) (byteOf v 2) (byteOf v 1) (byteOf v 0) = v := by
  have hhigh : byteOf v 3 ++ byteOf v 2 = v.extractLsb' 16 16 :=
    BitVec.extractLsb'_append_extractLsb'_eq_extractLsb' rfl
  have hupper : v.extractLsb' 16 16 ++ byteOf v 1 = v.extractLsb' 8 24 :=
    BitVec.extractLsb'_append_extractLsb'_eq_extractLsb' rfl
  have hall : v.extractLsb' 8 24 ++ byteOf v 0 = v.extractLsb' 0 32 :=
    BitVec.extractLsb'_append_extractLsb'_eq_extractLsb' rfl
  rw [beWord_eq_append, hhigh, hupper, hall, BitVec.extractLsb'_eq_self]

/-- Each byte of a word that is read from four bytes. -/
theorem byteOf_beWord (a b c d : Byte) :
    [byteOf (beWord a b c d) 3, byteOf (beWord a b c d) 2, byteOf (beWord a b c d) 1, byteOf (beWord a b c d) 0] =
      [a, b, c, d] := by
  have h3 : byteOf (a ++ b ++ c ++ d) 3 = a :=
    (BitVec.extractLsb'_append_eq_of_le (by decide)).trans <|
      (BitVec.extractLsb'_append_eq_of_le (by decide)).trans BitVec.extractLsb'_append_eq_left
  have h2 : byteOf (a ++ b ++ c ++ d) 2 = b :=
    (BitVec.extractLsb'_append_eq_of_le (by decide)).trans <|
      (BitVec.extractLsb'_append_eq_of_le (by decide)).trans BitVec.extractLsb'_append_eq_right
  have h1 : byteOf (a ++ b ++ c ++ d) 1 = c :=
    (BitVec.extractLsb'_append_eq_of_le (by decide)).trans BitVec.extractLsb'_append_eq_right
  have h0 : byteOf (a ++ b ++ c ++ d) 0 = d := BitVec.extractLsb'_append_eq_right
  rw [beWord_eq_append, h3, h2, h1, h0]

theorem beWord_eq_iff (a b c d : Byte) (v : Word32) :
    beWord a b c d = v ↔ [byteOf v 3, byteOf v 2, byteOf v 1, byteOf v 0] = [a, b, c, d] := by
  constructor
  · rintro rfl
    exact byteOf_beWord a b c d
  · intro h
    simp only [List.cons.injEq] at h
    obtain ⟨rfl, rfl, rfl, rfl, -⟩ := h
    exact beWord_byteOf v

theorem signBlock_eq_self_iff (d : Block) : signBlock d = d ↔ beWord d[12] d[13] d[14] d[15] = figureCrc d := by
  rw [← Vector.toList_inj, signBlock_toList]
  conv_lhs => rhs; rw [block_toList_eq_window_append d]
  rw [List.append_cancel_left_eq, beWord_eq_iff]

/-- Settles O14: signing writes the bytes of the CRC, which it does not change. -/
theorem signedBlocksAreTheFixedPoints : Obligations.SignedBlocksAreTheFixedPoints := by
  refine ⟨signBlock_eq_self_iff, fun b => Vector.toList_inj.1 ?_⟩
  rw [signBlock_toList (signBlock b), figureCrc_signBlock, signBlock_toList b, List.take_left' (by simp)]

/-! ## Byte-serial units -/

/-- U1 after `k` byte steps of a CRC operation (R143, R150). -/
def U1.serial (u : U1) (b : Block) (k : Nat) : U1 :=
  { u with crc := (b.toList.take k).foldl crcStep Config.crcInit, cidx := BitVec.ofNat 4 k, blk := b }

theorem U1.tick_serial (u : U1) (b : Block) {k : Nat} (hk : k < 12) :
    (u.serial b k).tick = u.serial b (k + 1) := by
  have hcidx : (u.serial b k).cidx.toNat = k := Nat.mod_eq_of_lt (by omega)
  have hin : (u.serial b k).cidx.toNat < Config.crcWindow := hcidx.trans_lt hk
  rw [U1.tick, if_pos hin]
  have hk16 : k < 16 := by omega
  simp [U1.serial, hk16, Nat.mod_eq_of_lt hk16, List.take_succ_eq_append_getElem, BitVec.ofNat_add]

theorem U1.tick_iterate_start (u : U1) (b : Block) {k : Nat} (hk : k ≤ 12) :
    U1.tick^[k] (u.start b) = u.serial b k := by
  induction k with
  | zero => rfl
  | succ k ih => rw [Function.iterate_succ_apply', ih (by omega), U1.tick_serial u b (by omega)]

/-- U2 after `k` additions of a checksum operation (41_checksum.md R162, R171). -/
def U2.serial (u : U2) (n : BitVec 7) (f : Frame) (k : Nat) : U2 :=
  { u with sum := additiveChecksum f k, sidx := BitVec.ofNat 7 k, slen := n, frm := f }

theorem additiveChecksum_succ (f : Frame) {k : Nat} (hk : k < 64) :
    additiveChecksum f (k + 1) = additiveChecksum f k + f[k] := by
  simp [additiveChecksum, List.take_succ_eq_append_getElem, hk]

theorem U2.tick_serial (u : U2) {n : BitVec 7} (f : Frame) {k : Nat} (hn : n.toNat ≤ 64) (hk : k < n.toNat) :
    (u.serial n f k).tick = u.serial n f (k + 1) := by
  have hsidx : (u.serial n f k).sidx.toNat = k := Nat.mod_eq_of_lt (by omega)
  have hin : (u.serial n f k).sidx.toNat < (u.serial n f k).slen.toNat := hsidx.trans_lt hk
  have hk64 : k < 64 := by omega
  rw [U2.tick, if_pos hin, hsidx]
  simp [U2.serial, additiveChecksum_succ f hk64, BitVec.ofNat_add, hk64]

theorem U2.tick_iterate_start (u : U2) {n : BitVec 7} (f : Frame) {k : Nat} (hn : n.toNat ≤ 64) (hk : k ≤ n.toNat) :
    U2.tick^[k] (u.start n f) = u.serial n f k := by
  induction k with
  | zero => rfl
  | succ k ih => rw [Function.iterate_succ_apply', ih (by omega), U2.tick_serial u f hn (by omega)]

theorem U2.serial_eq_csum (u : U2) (n : BitVec 7) (f : Frame) : u.serial n f n.toNat = u.csum n f := by
  rw [U2.serial, U2.csum, BitVec.ofNat_toNat, BitVec.setWidth_eq]

/-- Settles O15: after its last tick each unit holds the registers of the atomic operation. -/
theorem byteSerialUnitsAgreeWithAtomicOnes : Obligations.ByteSerialUnitsAgreeWithAtomicOnes :=
  ⟨fun u b => u.tick_iterate_start b le_rfl,
    fun u n f hn => (u.tick_iterate_start f hn le_rfl).trans (u.serial_eq_csum n f)⟩

end Sys2Proof.Machine
end

section
/-!
PROOFS. The statements of the family 41_checksum.md. A request of U2 is refused when its length is out of range and
otherwise, when U2 is not busy, writes U2 and answers; each statement about a request rests on that. The laws of the
checksum follow from how a frame's first bytes split, and those of a signed frame from the fact that signing leaves the
bytes below the signed one.
-/

namespace Sys2Proof.Machine

/-! ## The requests -/

/-- CSUM with a length out of range is refused, whatever U2 does (41_checksum.md R161, log entry 7). -/
theorem exec_csum_of_length_out_of_range {n : BitVec 7} (f : Frame) (s : State) (h : 64 < n.toNat) :
    exec (.csum n f) s = .next (s.refuse .c .len) := by
  simp [exec, execCsum, h]

/-- CSIGN likewise (R161). -/
theorem exec_csign_of_length_out_of_range {n : BitVec 7} (f : Frame) (s : State) (h : 63 < n.toNat) :
    exec (.csign n f) s = .next (s.refuse .c .len) := by
  simp [exec, execCsign, h]

/-- CSUM in range from a state in which U2 is not busy: U2 does its work and port C completes (R162). -/
theorem exec_csum_of_not_busy {n : BitVec 7} (f : Frame) {s : State} (hn : n.toNat ≤ 64) (h : s.u2.busy = false) :
    exec (.csum n f) s =
      .next (({ s with u2 := s.u2.csum n f } : State).complete .c (.ok (.sum (additiveChecksum f n.toNat)))) := by
  simp [exec, execCsum, h, hn.not_gt]

/-- CSIGN likewise (R168). -/
theorem exec_csign_of_not_busy {n : BitVec 7} (f : Frame) {s : State} (hn : n.toNat ≤ 63) (h : s.u2.busy = false) :
    exec (.csign n f) s =
      .next (({ s with u2 := s.u2.csign n f } : State).complete .c (.ok (.frame (signFrame f n.toNat)))) := by
  simp [exec, execCsign, h, hn.not_gt]

/-- Settles O18: both requests are refused before U2 is looked at. -/
theorem lengthOutOfRangeIsRefused : Obligations.LengthOutOfRangeIsRefused :=
  fun _ f s => ⟨exec_csum_of_length_out_of_range f s, exec_csign_of_length_out_of_range f s⟩

theorem U2.csum_of_not_busy {u : U2} (n : BitVec 7) (f : Frame) (h : u.busy = false) :
    u.csum n f =
      { sum := BitVec.ofNat 8 (byteSum (f.toList.take n.toNat)), sidx := n, slen := n, frm := f, busy := false } := by
  rw [U2.csum, additiveChecksum_eq, h]

/-- Settles O16: U2's accumulator and the response are the checksum of the first bytes. -/
theorem csumCompletes : Obligations.CsumCompletes := by
  intro n f s hn h
  rw [exec_csum_of_not_busy f hn h, U2.csum_of_not_busy n f h, additiveChecksum_eq]
  rfl

/-! ## The laws of the checksum -/

/-- Two bytes added in nine bits and truncated to eight are their sum modulo 256 (R165, R166). -/
theorem truncate_zeroExtend_add (a b : Byte) : BitVec.truncate 8 (a.zeroExtend 9 + b.zeroExtend 9) = a + b := by
  rw [BitVec.truncate_eq_setWidth, BitVec.setWidth_add _ _ (by decide)]
  simp

/-- Settles O19: CSUM answers the checksum, which is the truncated integer sum. -/
theorem checksumIsTheSumModulo256 : Obligations.ChecksumIsTheSumModulo256 := by
  intro f n s hn h
  refine ⟨⟨_, _, exec_csum_of_not_busy f hn h, rfl, ?_⟩, ?_⟩
  · rw [additiveChecksum_eq, BitVec.toNat_ofNat]
  · simp only [truncate_zeroExtend_add]
    exact additiveChecksum_eq f n.toNat

/-- The checksum goes on from that of fewer bytes (R167). -/
theorem additiveChecksum_split (f : Frame) {m n : Nat} (h : m ≤ n) :
    additiveChecksum f n = additiveChecksum f m + BitVec.ofNat 8 (byteSum ((f.toList.drop m).take (n - m))) := by
  have hsplit : f.toList.take n = f.toList.take m ++ (f.toList.drop m).take (n - m) := by
    rw [← List.take_add, Nat.add_sub_cancel' h]
  rw [additiveChecksum, hsplit, List.foldl_append, foldl_add_bytes, ← additiveChecksum]

/-- Settles O21: the first bytes of a frame are fewer bytes and those after them. -/
theorem checksumConcatenationLaw : Obligations.ChecksumConcatenationLaw := by
  refine ⟨fun f m n hm _ => ?_, fun f n hn => additiveChecksum_succ f hn⟩
  rw [additiveChecksum_split f hm, BitVec.ofNat_add, BitVec.ofNat_toNat, BitVec.setWidth_eq]

/-- Frames that agree on their first bytes have the same checksum of them (R164). -/
theorem additiveChecksum_congr {f f' : Frame} {n : Nat} (h : ∀ (k : Nat) (hk : k < 64), k < n → f[k] = f'[k]) :
    additiveChecksum f n = additiveChecksum f' n := by
  have htake : f.toList.take n = f'.toList.take n := by
    apply List.ext_getElem
    · simp
    · intro k hk _
      have hkn : k < 64 ∧ k < n := by simp at hk; omega
      simpa using h k hkn.1 hkn.2
  rw [additiveChecksum, htake, additiveChecksum]

/-- Settles O20: only the first bytes enter the checksum. -/
theorem checksumWindowLaw : Obligations.ChecksumWindowLaw := by
  intro f f' n s hn h hidle
  have hsum : additiveChecksum f n.toNat = additiveChecksum f' n.toNat := additiveChecksum_congr h
  refine ⟨_, _, exec_csum_of_not_busy f hn hidle, exec_csum_of_not_busy f' hn hidle, ?_, ?_⟩
  · simp [hsum]
  · simpa using hsum

/-! ## The signed frame -/

/-- Signing stores the checksum at byte `n` and keeps every other byte (R168). -/
theorem signFrame_getElem (f : Frame) (n : Nat) {k : Nat} (hk : k < 64) :
    (signFrame f n)[k] = if k = n then additiveChecksum f n else f[k] := by
  simp only [signFrame, Vector.getElem_setIfInBounds, eq_comm]

theorem U2.csign_of_not_busy {u : U2} (n : BitVec 7) (f : Frame) (h : u.busy = false) :
    u.csign n f =
      { sum := BitVec.ofNat 8 (byteSum (f.toList.take n.toNat)), sidx := n, slen := n, frm := signFrame f n.toNat,
        busy := false } := by
  rw [U2.csign, U2.csum_of_not_busy n f h]

/-- Settles O17: U2 and the response hold the signed frame. -/
theorem csignCompletes : Obligations.CsignCompletes := by
  intro n f s hn h
  refine ⟨signFrame f n.toNat, fun k hk => ?_, ?_⟩
  · rw [signFrame_getElem f n.toNat hk, additiveChecksum_eq]
  · rw [exec_csign_of_not_busy f hn h, U2.csign_of_not_busy n f h]
    rfl

/-- Signing leaves the bytes below the signed one, and so their checksum (R168). -/
theorem additiveChecksum_signFrame (f : Frame) (n : Nat) :
    additiveChecksum (signFrame f n) n = additiveChecksum f n :=
  additiveChecksum_congr fun _ hk hkn => (signFrame_getElem f n hk).trans (if_neg hkn.ne)

/-- Signing again at the same offset stores the same byte (R168 e). -/
theorem signFrame_signFrame (f : Frame) (n : Nat) : signFrame (signFrame f n) n = signFrame f n := by
  rw [signFrame, additiveChecksum_signFrame, signFrame, Vector.setIfInBounds_setIfInBounds]

/-- Settles O22: the signed byte is the checksum below it, which signing does not change. -/
theorem signedFramesAreFixedPoints : Obligations.SignedFramesAreFixedPoints := by
  intro f n hn
  have hsigned : (signFrame f n)[n] = additiveChecksum (signFrame f n) n := by
    rw [additiveChecksum_signFrame, signFrame_getElem f n hn, if_pos rfl]
  refine ⟨signFrame_signFrame f n, hsigned, ?_⟩
  rw [additiveChecksum_succ _ hn, ← hsigned]
  exact (two_mul _).symm

end Sys2Proof.Machine
end

section
/-!
PROOFS. The statements of the family 42_mux.md about one request or one turn: the four requests of U3, its two functions,
the delivery, the backoff counter, and what is inert.
-/

namespace Sys2Proof.Machine

/-! ## The pushes -/

/-- PUSHR into a queue with room appends and answers (42_mux.md R181). -/
theorem State.pushReply_of_fits {s : State} (n : BitVec 7) (f : Frame)
    (h : s.params.rqDepth.fits (s.u3.rq.length + 1) = true) :
    s.pushReply n f = ({ s with u3 := s.u3.pushR f } : State).complete .w (.ok .none) :=
  if_pos ((hasRoom_iff _ _).trans h)

/-- PUSHN into a queue with room appends and answers (R184). -/
theorem State.pushNotification_of_fits {s : State} (n : BitVec 7) (f : Frame)
    (h : s.params.nqDepth.fits (s.u3.nq.length + 1) = true) :
    s.pushNotification n f = ({ s with u3 := s.u3.pushN f } : State).complete .e (.ok .none) :=
  if_pos ((hasRoom_iff _ _).trans h)

/-- Settles O24: with room PUSHR appends and answers. -/
theorem pushrCompletes : Obligations.PushrCompletes :=
  fun n f _ h => congrArg Host.Outcome.next (State.pushReply_of_fits n f h)

/-- Settles O25: with room PUSHN appends and answers, and its arm does not look at `awake`. -/
theorem pushnCompletes : Obligations.PushnCompletes :=
  fun n f _ h => congrArg Host.Outcome.next (State.pushNotification_of_fits n f h)

/-- The Writer, with nothing held, is outside the region afterwards. -/
theorem State.writerLeaves_of_free {s : State} (h : s.portW.held = none) :
    s.writerLeaves =
      { s with env := { s.env with region := if s.env.region = .writer then .free else s.env.region } } := by
  by_cases hregion : s.env.region = .writer
  · simp [State.writerLeaves, h, hregion]
  · simp [State.writerLeaves, hregion]

/-- The Event agent, with nothing held, is outside the region afterwards. -/
theorem State.eventLeaves_of_free {s : State} (h : s.portE.held = none) :
    s.eventLeaves =
      { s with env := { s.env with region := if s.env.region = .event then .free else s.env.region } } := by
  by_cases hregion : s.env.region = .event
  · simp [State.eventLeaves, h, hregion]
  · simp [State.eventLeaves, hregion]

/-- Port W's turn with a PUSHR that holds and a reply queue with room (60_exceptions.md R255). -/
theorem writerTurn_of_pushr {s : State} {n : BitVec 7} {f : Frame} (hheld : s.portW.held = some (.pushr n f))
    (hfits : s.params.rqDepth.fits (s.u3.rq.length + 1) = true) :
    writerTurn s = .next
      { s with
        u3 := { s.u3 with rq := s.u3.rq ++ [f] }
        portW := { s.portW with held := none, out := s.portW.out ++ [.ok .none] }
        env := { s.env with region := if s.env.region = .writer then .free else s.env.region } } := by
  have hstarts : ¬ s.commandWaits (.pushr n f) = true := fun h => nomatch ((s.commandWaits_iff _).1 h).1
  rw [writerTurn_of_held hheld, if_neg hstarts, pushrCompletes n f s hfits]
  exact congrArg Host.Outcome.next (State.writerLeaves_of_free rfl)

/-- Port E's turn with a PUSHN that holds and a notification queue with room (60_exceptions.md R255). -/
theorem eventTurn_of_pushn {s : State} {n : BitVec 7} {f : Frame} (hheld : s.portE.held = some (.pushn n f))
    (hfits : s.params.nqDepth.fits (s.u3.nq.length + 1) = true) :
    eventTurn s = .next
      { s with
        u3 := { s.u3 with nq := s.u3.nq ++ [f] }
        portE := { s.portE with held := none, out := s.portE.out ++ [.ok .none] }
        env := { s.env with region := if s.env.region = .event then .free else s.env.region } } := by
  rw [eventTurn_of_held hheld, pushnCompletes n f s hfits]
  exact congrArg Host.Outcome.next (State.eventLeaves_of_free rfl)

/-- Settles O26: a full queue accepts no push, and a push that holds is run again at its port's turn. -/
theorem pushOnAFullQueueHolds : Obligations.PushOnAFullQueueHolds := by
  refine fun n f s => ⟨fun hfull => ?_, fun hfull => ?_, fun ts hsched hheld hfits => ?_,
    fun ts hsched hheld hfits => ?_⟩
  · exact exec_of_not_accepts (i := .pushr n f) (hasRoom_of_full hfull)
  · exact exec_of_not_accepts (i := .pushn n f) (hasRoom_of_full hfull)
  · exact (step_of_schedule_cons hsched).trans (writerTurn_of_pushr hheld hfits)
  · exact (step_of_schedule_cons hsched).trans (eventTurn_of_pushn hheld hfits)

/-! ## WAKE and POLL -/

/-- Settles O27: no branch of WAKE depends on the state. -/
theorem wakeCompletes : Obligations.WakeCompletes := fun _ _ => rfl

/-- Settles O28: POLL looks at `pstate` alone. -/
theorem pollIsAccepted : Obligations.PollIsAccepted := by
  refine fun n s => ⟨fun hidle => ?_, fun hpending => ?_⟩
  · simp only [exec, execPoll, hidle]
    rfl
  · simp only [exec, execPoll, hpending]
    rfl

/-! ## What is deliverable -/

/-- `deliverable` on the two queues (42_mux.md R190). -/
theorem U3.deliverable_iff (u : U3) :
    u.deliverable = true ↔ (u.awake = true ∧ 0 < u.nq.length) ∨ 0 < u.rq.length := by
  simp [U3.deliverable, U3.nqNe, U3.rqNe, not_isEmpty_eq_decide]

/-- Nothing is deliverable exactly when there is no reply and no notification that is eligible. -/
theorem U3.deliverable_eq_false_iff (u : U3) :
    u.deliverable = false ↔ (u.awake = false ∨ u.nq = []) ∧ u.rq = [] := by
  rw [← Bool.not_eq_true, U3.deliverable_iff]
  simp [List.length_pos_iff, imp_iff_not_or]

/-- `select` on the two queues (R190). -/
theorem U3.select_eq (u : U3) :
    u.select = if u.awake = true ∧ 0 < u.nq.length then some .notifications
      else if 0 < u.rq.length then some .replies else none := by
  simp [U3.select, U3.nqNe, U3.rqNe, not_isEmpty_eq_decide]

/-- Settles O29: by the two conditions `select` branches on. -/
theorem deliverableMeansSelectable : Obligations.DeliverableMeansSelectable := by
  intro u
  rw [u.deliverable_iff, u.select_eq]
  by_cases hN : u.awake = true ∧ 0 < u.nq.length
  · simp [hN]
  · by_cases hR : 0 < u.rq.length <;> simp [hN, hR]

/-- Nothing deliverable means nothing to take (R191). -/
theorem U3.pollDeliver_eq_none {u : U3} (h : u.deliverable = false) : u.pollDeliver = none := by
  obtain ⟨hnq, hrq⟩ := u.deliverable_eq_false_iff.1 h
  rcases u.pollDeliver_cases with ⟨f, rest, hawake, hcons, -⟩ | ⟨f, rest, -, hcons, -⟩ | ⟨-, -, e⟩
  · simp [hawake, hcons] at hnq
  · simp [hrq] at hcons
  · exact e

/-- Something deliverable means a frame to take, after which no POLL is pending (R191). -/
theorem U3.pollDeliver_of_deliverable {u : U3} (h : u.deliverable = true) :
    ∃ f v, u.pollDeliver = some (f, v) ∧ v.pstate = .idle := by
  rcases u.pollDeliver_cases with ⟨f, rest, -, -, e⟩ | ⟨f, rest, -, -, e⟩ | ⟨hnq, hrq, -⟩
  · exact ⟨f, _, e, rfl⟩
  · exact ⟨f, _, e, rfl⟩
  · rw [u.deliverable_eq_false_iff.2 ⟨hnq, hrq⟩] at h
    cases h

/-- While awake the oldest notification is taken (R191). -/
theorem U3.pollDeliver_of_awake {u : U3} {f : Frame} {rest : List Frame} (hawake : u.awake = true)
    (hnq : u.nq = f :: rest) : u.pollDeliver = some (f, { u with nq := rest, pstate := .idle }) := by
  simp only [U3.pollDeliver, hawake, hnq]

/-- With no notification eligible the oldest reply is taken (R191). -/
theorem U3.pollDeliver_of_not_eligible {u : U3} {f : Frame} {rest : List Frame}
    (hno : u.awake = false ∨ u.nq = []) (hrq : u.rq = f :: rest) :
    u.pollDeliver = some (f, { u with rq := rest, pstate := .idle }) := by
  rcases hno with hawake | hnq
  · simp only [U3.pollDeliver, hawake, hrq]
  · cases hawake : u.awake <;> simp only [U3.pollDeliver, hawake, hnq, hrq]

/-! ## The turn that a step takes -/

/-- Whose turn the next step is: the head of the schedule, or what the block does by itself (log entry 6). -/
def State.nextTurn (s : State) : Turn := s.schedule.head?.getD s.idleTurn

/-- The state with the next turn taken from the schedule. -/
def State.turnTaken (s : State) : State := { s with schedule := s.schedule.tail }

/-- While the schedule lasts, its head. -/
theorem State.nextTurn_of_cons {s : State} {turn : Turn} {ts : List Turn} (h : s.schedule = turn :: ts) :
    s.nextTurn = turn := by
  simp [State.nextTurn, h]

/-- Past its end, the block's own move. -/
theorem State.nextTurn_of_nil {s : State} (h : s.schedule = []) : s.nextTurn = s.idleTurn := by
  simp [State.nextTurn, h]

/-- A step is one turn. -/
theorem step_eq_performTurn (s : State) : step s = performTurn s.nextTurn s.turnTaken := by
  cases h : s.schedule with
  | nil =>
    have hsame : s.turnTaken = s := by rw [State.turnTaken, h, List.tail_nil, ← h]
    rw [step_of_schedule_nil h, s.nextTurn_of_nil h, hsame]
  | cons turn ts => rw [step_of_schedule_cons h, s.nextTurn_of_cons h, State.turnTaken, h, List.tail_cons]

/-- A turn other than reset. -/
theorem State.nextTurn_ne_rst {s : State} (h : s.resetNext = false) : s.nextTurn ≠ .rst := by
  cases hsched : s.schedule with
  | nil => exact s.nextTurn_of_nil hsched ▸ s.idleTurn_ne_rst
  | cons turn ts =>
    rw [s.nextTurn_of_cons hsched]
    simpa [State.resetNext, hsched] using h

/-- With an empty schedule the block makes an enabled delivery by itself (log entry 6). -/
theorem State.idleTurn_of_deliverable {s : State} (hp : s.u3.pstate = .pending) (hd : s.u3.deliverable = true) :
    s.idleTurn = .deliver := by
  simp [State.idleTurn, U3.pollPending, hp, hd]

/-! ## The delivery and the backoff counter -/

/-- An attempt that finds a frame delivers it (42_mux.md R191). -/
theorem State.deliver_of_some {s : State} {f : Frame} {u : U3} (hp : s.u3.pstate = .pending)
    (h : s.u3.pollDeliver = some (f, u)) :
    s.deliver = { s with u3 := u, portR := s.portR.emit (.ok (.frame f)) } := by
  simp only [State.deliver, hp, h]

/-- An attempt that finds nothing starts a new backoff interval (R194). -/
theorem State.deliver_of_waiting {s : State} (hp : s.u3.pstate = .pending) (hd : s.u3.deliverable = false) :
    s.deliver = { s with u3 := { s.u3 with bcnt := 0 } } := by
  simp only [State.deliver, hp, U3.pollDeliver_eq_none hd]

/-- Without a POLL pending an attempt does nothing. -/
theorem State.deliver_of_idle {s : State} (hp : s.u3.pstate = .idle) : s.deliver = s := by
  simp only [State.deliver, hp]

/-- A step whose turn is an enabled delivery. -/
theorem step_of_delivery {s : State} {f : Frame} {u : U3} (hturn : s.nextTurn = .deliver)
    (hp : s.u3.pstate = .pending) (h : s.u3.pollDeliver = some (f, u)) :
    step s = .next
      { s with
        schedule := s.schedule.tail
        u3 := u
        portR := { s.portR with out := s.portR.out ++ [.ok (.frame f)] } } := by
  rw [step_eq_performTurn, hturn]
  exact congrArg Host.Outcome.next (State.deliver_of_some (s := s.turnTaken) hp h)

/-- Settles O30: the turn is a delivery either way, and it takes what the priority rule says. -/
theorem deliveryTakesNotificationsFirst : Obligations.DeliveryTakesNotificationsFirst := by
  intro s ts f rest hsched hp
  have htail : s.schedule.tail = ts := by
    rcases hsched with h | ⟨h, rfl⟩ <;> simp [h]
  have hturn (hd : s.u3.deliverable = true) : s.nextTurn = .deliver := by
    rcases hsched with h | ⟨h, -⟩
    · exact s.nextTurn_of_cons h
    · exact (s.nextTurn_of_nil h).trans (State.idleTurn_of_deliverable hp hd)
  subst htail
  refine ⟨fun hawake hnq => ?_, fun hno hrq => ?_⟩
  · exact step_of_delivery (hturn (s.u3.deliverable_iff.2 (.inl ⟨hawake, by simp [hnq]⟩))) hp
      (U3.pollDeliver_of_awake hawake hnq)
  · exact step_of_delivery (hturn (s.u3.deliverable_iff.2 (.inr (by simp [hrq])))) hp
      (U3.pollDeliver_of_not_eligible hno hrq)

/-- A tick writes `bcnt` alone (R194, 60_exceptions.md R268). -/
theorem State.backoffTick_eq (s : State) : s.backoffTick = { s with
    u3 := { s.u3 with
      bcnt := if s.u3.pstate = .pending ∧ s.u3.deliverable = false ∧ s.u3.bcnt < s.params.backoffTicks then
          s.u3.bcnt + 1
        else s.u3.bcnt } } := by
  unfold State.backoffTick
  simp only [U3.pollPending, Bool.and_eq_true, decide_eq_true_eq, Bool.not_eq_true', and_assoc]
  split <;> rfl

/-- Settles O31: a tick and an attempt that finds nothing write `bcnt` alone. -/
theorem backoffCountsOnlyWhileWaiting : Obligations.BackoffCountsOnlyWhileWaiting := by
  refine fun s ts => ⟨fun hsched => ?_, fun hsched hp hd => ?_, fun hsched hp => ?_⟩ <;>
    refine (step_of_schedule_cons hsched).trans (congrArg Host.Outcome.next ?_)
  · exact State.backoffTick_eq _
  · exact State.deliver_of_waiting hp hd
  · exact State.deliver_of_idle hp

/-! ## What is inert -/

/-- Settles O56: a host call's turn is empty, and every turn keeps the parameters. -/
theorem hostCallsAndParametersAreInert : Obligations.HostCallsAndParametersAreInert := by
  refine ⟨fun s ts c hsched => step_of_schedule_cons hsched, fun s t hstep => ?_⟩
  cases hrst : s.resetNext with
  | false => exact (step_moved hrst hstep).keeps.params
  | true =>
    obtain ⟨ts, -, hreset⟩ := step_of_resetNext hrst
    cases hreset.symm.trans hstep
    rfl

/-! ## A POLL that waits -/

/-- U3, the clock, the Reader or a host call moves: none of them pushes or wakes. -/
def Turn.pushesNothing (turn : Turn) : Prop :=
  turn = .deliver ∨ turn = .tick ∨ turn = .reader ∨ ∃ c, turn = .hostCall c

/-- Nothing holds on the ports C, W and E. -/
def State.onlyReaderHolds (s : State) : Prop := ∀ p, p ≠ .r → s.heldOn p = none

/-- Where nothing holds nothing is ready. -/
theorem State.ready_none (s : State) (p : PortId) : s.ready p none = false := rfl

/-- With a POLL waiting and nothing held on the other ports, the block by itself can only attempt a delivery: on port R
only another POLL could be ready, and it holds (42_mux.md R189). -/
theorem State.idleTurn_of_waiting {s : State} (hp : s.u3.pstate = .pending) (hd : s.u3.deliverable = false)
    (hheld : s.onlyReaderHolds) : s.idleTurn = .deliver := by
  have hC : s.portC.held = none := hheld .c nofun
  have hW : s.portW.held = none := hheld .w nofun
  have hE : s.portE.held = none := hheld .e nofun
  have hR : s.ready .r s.portR.held = false := by
    rcases hr : s.portR.held with _ | i
    · rfl
    · cases i <;> simp [State.ready, State.accepts, Instr.port, Op.port, U3.pollPending, hp]
  simp [State.idleTurn, hC, hW, hE, hR, hd, State.ready_none]

/-- A turn that pushes nothing leaves a waiting POLL waiting: it touches `bcnt` at most (R192). -/
theorem performTurn_of_waiting {turn : Turn} {s : State} (hturn : turn.pushesNothing) (hp : s.u3.pstate = .pending)
    (hd : s.u3.deliverable = false) : ∃ b, performTurn turn s = .next { s with u3 := { s.u3 with bcnt := b } } := by
  rcases hturn with rfl | rfl | rfl | ⟨c, rfl⟩
  · exact ⟨_, congrArg Host.Outcome.next (State.deliver_of_waiting hp hd)⟩
  · exact ⟨_, congrArg Host.Outcome.next s.backoffTick_eq⟩
  · exact ⟨_, readerTurn_of_pending hp⟩
  · exact ⟨_, rfl⟩

/-- A step of such a run. -/
theorem step_of_waiting {s : State} (hp : s.u3.pstate = .pending) (hd : s.u3.deliverable = false)
    (hsched : ∀ x ∈ s.schedule, x.pushesNothing) (hheld : s.onlyReaderHolds ∨ s.schedule ≠ []) :
    ∃ b, step s = .next { s with schedule := s.schedule.tail, u3 := { s.u3 with bcnt := b } } := by
  have hturn : s.nextTurn.pushesNothing := by
    cases h : s.schedule with
    | nil =>
      rw [s.nextTurn_of_nil h, State.idleTurn_of_waiting hp hd (hheld.resolve_right (not_not_intro h))]
      exact .inl rfl
    | cons turn ts => exact s.nextTurn_of_cons h ▸ hsched turn (by simp [h])
  rw [step_eq_performTurn]
  exact performTurn_of_waiting hturn hp hd

/-- Settles O32: by induction on the run, each of whose steps touches the schedule and `bcnt` at most. -/
theorem blockedPollNeverTimesOut : Obligations.BlockedPollNeverTimesOut := by
  intro k s t hrun
  induction hrun with
  | refl s => exact fun hp _ _ _ => ⟨hp, rfl, rfl, rfl, rfl⟩
  | @step k s u t hstep _ _ ih =>
    intro hp hd hsched hbound
    have hheld : s.onlyReaderHolds ∨ s.schedule ≠ [] := by
      refine hbound.imp_right fun hlen hnil => ?_
      simp [hnil] at hlen
    obtain ⟨b, hwait⟩ := step_of_waiting hp hd hsched hheld
    cases hwait.symm.trans hstep
    refine ih hp hd (fun x hx => hsched x (List.mem_of_mem_tail hx)) (hbound.imp_right fun hlen => ?_)
    rw [List.length_tail]
    omega

end Sys2Proof.Machine
end

section
/-!
PROOFS. What one step can do to U3 and to the answers that go with it, said once (`MuxStep`, 42_mux.md R199), and the
statements of the family 42_mux.md about every step and every run, which follow from it. `MuxView` is the part of the
state that these statements speak of: updates of anything else leave it as it is, so they pass by computation.
-/

namespace Sys2Proof.Machine

/-! ## The view of U3 and its answers -/

/-- U3, what the ports W and E hold and how often they answered OK, the delivered frames, and the schedule. -/
structure MuxView where
  schedule : List Turn
  u3 : U3
  okW : Nat
  okE : Nat
  heldW : Option Instr
  heldE : Option Instr
  delivered : List Frame

/-- The view of a state. -/
def State.muxView (s : State) : MuxView where
  schedule := s.schedule
  u3 := s.u3
  okW := s.okCount .w
  okE := s.okCount .e
  heldW := s.portW.held
  heldE := s.portE.held
  delivered := s.delivered

/-- The next job of the Event agent is an attach or a detach (43_client_sequences.md R218). -/
def State.eventNext (s : State) : Prop :=
  (∃ blob handle, s.portE.script.head? = some (.attach blob handle)) ∨
    (∃ slot, s.portE.script.head? = some (.detach slot))

/-- Everything that can become of the view in one step other than reset, where the agents present the instructions `P`
and `N` says that an attach or a detach is next (42_mux.md R199): a WAKE, a PUSHR, alone or after the WAKE of its
command, a PUSHN, or a delivery, each with its answer; otherwise at most `bcnt`, a POLL's acceptance and what the ports
hold. -/
inductive MuxStep (P : Instr → Prop) (N : Prop) (v w : MuxView) : Prop where
  | quiet (bcnt : Nat) (hw he : Option Instr)
      (h : w = { v with u3 := { v.u3 with bcnt := bcnt }, heldW := hw, heldE := he })
  | poll (h : w = { v with u3 := v.u3.pollAccept })
  | wake (hw : Option Instr) (hp : (∃ n, P (.wake n)) ∨ ∃ seq, P (.cmdWake seq))
      (h : w = { v with u3 := v.u3.wakeUp, okW := v.okW + 1, heldW := hw })
  | reply (f : Frame) (hp : (∃ n, P (.pushr n f)) ∨ ∃ i : Instr, i.wire = .command ∧ P i)
      (h : w = { v with u3 := v.u3.pushR f, okW := v.okW + 1, heldW := none })
  | wakeReply (f : Frame) (seq : Byte) (hp : P (.cmdWake seq))
      (h : w = { v with u3 := v.u3.wakeUp.pushR f, okW := v.okW + 2, heldW := none })
  | notification (f : Frame) (hp : (∃ n, P (.pushn n f)) ∨ N)
      (h : w = { v with u3 := v.u3.pushN f, okE := v.okE + 1, heldE := none })
  | delivery (f : Frame) (u : U3) (hpend : v.u3.pstate = .pending) (htake : v.u3.pollDeliver = some (f, u))
      (h : w = { v with u3 := u, delivered := v.delivered ++ [f] })

section View

variable {P : Instr → Prop} {N : Prop}

/-- Nothing happens. -/
theorem MuxStep.refl (v : MuxView) : MuxStep P N v v := .quiet v.u3.bcnt v.heldW v.heldE rfl

/-- What a turn does leaves the rest of the schedule. -/
theorem MuxStep.schedule_eq {v w : MuxView} (h : MuxStep P N v w) : w.schedule = v.schedule := by
  cases h <;> subst w <;> rfl

/-! ## The view after the shared operations -/

/-- A completion on port W with status OK. -/
theorem State.muxView_complete_w (s : State) (r : Result) :
    (s.complete .w (.ok r)).muxView = { s.muxView with okW := s.muxView.okW + 1, heldW := none } := by
  simp [State.muxView, State.okCount, State.outOf, State.delivered]

/-- A completion on port E with status OK. -/
theorem State.muxView_complete_e (s : State) (r : Result) :
    (s.complete .e (.ok r)).muxView = { s.muxView with okE := s.muxView.okE + 1, heldE := none } := by
  simp [State.muxView, State.okCount, State.outOf, State.delivered]

/-- The WAKE of a Wake command is answered on port W. -/
theorem State.muxView_clientWake (s : State) :
    s.clientWake.muxView = { s.muxView with u3 := s.u3.wakeUp, okW := s.muxView.okW + 1 } := by
  simp [State.muxView, State.okCount, State.outOf, State.delivered]

/-- A delivered frame is answered on port R. -/
theorem State.muxView_emit_r (s : State) (u : U3) (f : Frame) :
    ({ s with u3 := u, portR := s.portR.emit (.ok (.frame f)) } : State).muxView =
      { s.muxView with u3 := u, delivered := s.muxView.delivered ++ [f] } := by
  simp [State.muxView, State.okCount, State.outOf, State.delivered, framesOf]

/-- A Write Block leaves U3 and the answers. -/
theorem State.muxView_writeBlock (s : State) (uid : Uid) (sector block : Byte) (payload : Block) :
    (s.writeBlock uid sector block payload).muxView = s.muxView := by
  rcases s.writeBlock_cases uid sector block payload with ⟨-, e⟩ | ⟨i, -, -, uid', k, -, -, e⟩
  · rw [e]
  · rw [e]
    rfl

/-- The region that a command's reply enters leaves the view of its PUSHR. -/
theorem State.muxView_reply (s : State) (f : Frame) : (s.reply f).muxView = (s.pushReply 0 f).muxView := by
  simp only [State.reply]
  split <;> rfl

/-- Leaving the region leaves the view. -/
theorem State.muxView_writerLeaves (s : State) : s.writerLeaves.muxView = s.muxView := by
  unfold State.writerLeaves
  split <;> rfl

/-- Likewise of the Event agent. -/
theorem State.muxView_eventLeaves (s : State) : s.eventLeaves.muxView = s.muxView := by
  unfold State.eventLeaves
  split <;> rfl

/-- The view after PUSHR: appended and answered, or held. -/
theorem State.muxView_pushReply (s : State) (n : BitVec 7) (f : Frame) :
    (s.pushReply n f).muxView =
      { s.muxView with u3 := s.u3.pushR f, okW := s.muxView.okW + 1, heldW := none } ∨
    (s.pushReply n f).muxView = { s.muxView with heldW := some (.pushr n f) } := by
  rcases s.pushReply_cases n f with ⟨-, e⟩ | ⟨-, e⟩
  · exact .inl (e ▸ State.muxView_complete_w _ _)
  · exact .inr (e ▸ rfl)

/-! ## Requests -/

/-- A request that holds. -/
theorem muxStep_hold (s : State) (p : PortId) (i : Instr) : MuxStep P N s.muxView (s.hold p i).muxView := by
  cases p with
  | c | r => exact .refl s.muxView
  | w => exact .quiet s.u3.bcnt (some i) s.portE.held rfl
  | e => exact .quiet s.u3.bcnt s.portW.held (some i) rfl

/-- A refusal is no OK and delivers nothing (60_exceptions.md R251). -/
theorem muxStep_refuse (s : State) (p : PortId) (c : RefCode) : MuxStep P N s.muxView (s.refuse p c).muxView := by
  have h : (s.refuse p c).muxView =
      { s.muxView with heldW := (s.refuse p c).heldOn .w, heldE := (s.refuse p c).heldOn .e } := by
    cases p <;> simp [State.muxView, State.okCount, State.outOf, State.delivered, framesOf, State.heldOn]
  exact .quiet s.u3.bcnt _ _ h

/-- A presented PUSHR. -/
theorem muxStep_pushReply {n : BitVec 7} {f : Frame} (s : State)
    (hp : (∃ n, P (.pushr n f)) ∨ ∃ i : Instr, i.wire = .command ∧ P i) :
    MuxStep P N s.muxView (s.pushReply n f).muxView := by
  rcases s.muxView_pushReply n f with h | h
  · exact .reply f hp h
  · exact .quiet s.u3.bcnt _ s.portE.held h

/-- A presented PUSHN, or that of an attach or detach. -/
theorem muxStep_pushNotification {n : BitVec 7} {f : Frame} (s : State) (hp : (∃ n, P (.pushn n f)) ∨ N) :
    MuxStep P N s.muxView (s.pushNotification n f).muxView := by
  rcases s.pushNotification_cases n f with ⟨-, e⟩ | ⟨-, e⟩
  · rw [e]
    exact .notification f hp (State.muxView_complete_e _ _)
  · rw [e]
    exact muxStep_hold s .e (.pushn n f)

/-- The PUSHR that ends a presented command (43_client_sequences.md R211). -/
theorem muxStep_reply {i : Instr} (s : State) (f : Frame) (hwire : i.wire = .command) (hP : P i) :
    MuxStep P N s.muxView (s.reply f).muxView := by
  rw [s.muxView_reply]
  exact muxStep_pushReply s (.inr ⟨i, hwire, hP⟩)

/-- Signing on port C, then the reply. -/
theorem muxStep_signAndReply {i : Instr} (s : State) (f : Frame) (n : Nat) (hwire : i.wire = .command) (hP : P i) :
    MuxStep P N s.muxView (s.signAndReply f n).muxView :=
  muxStep_reply (s.clientSign f n) (signFrame f n) hwire hP

/-- The WAKE and the reply of a Wake command: both, or the WAKE alone while the PUSHR holds (R212). -/
theorem muxStep_wakeAndReply {seq : Byte} (s : State) (f : Frame) (n : Nat) (hP : P (.cmdWake seq)) :
    MuxStep P N s.muxView (s.clientWake.signAndReply f n).muxView := by
  have hview : ((s.clientWake.clientSign f n).muxView) =
    { s.muxView with u3 := s.u3.wakeUp, okW := s.muxView.okW + 1 } := s.muxView_clientWake
  rw [State.signAndReply, State.muxView_reply]
  rcases (s.clientWake.clientSign f n).muxView_pushReply 0 (signFrame f n) with h | h
  · exact .wakeReply _ seq hP (by rw [h, hview]; rfl)
  · exact .wake (some (.pushr 0 (signFrame f n))) (.inr ⟨seq, hP⟩) (by rw [h, hview]; rfl)

/-- A client sequence that signs: it holds, or its body runs. -/
theorem muxStep_clientSequence {i : Instr} {s t u : State} (hbody : MuxStep P N s.muxView u.muxView)
    (h : clientSequence i s (.next u) = .next t) : MuxStep P N s.muxView t.muxView := by
  rcases clientSequence_cases i s (.next u) with ⟨-, e⟩ | ⟨-, e⟩
  · cases e.symm.trans h
    exact hbody
  · cases e.symm.trans h
    exact muxStep_hold s .w i

/-- A notification, after a change of the registry (43_client_sequences.md R218). -/
theorem muxStep_notify {s u : State} (added : Bool) (uid : Uid) (hview : u.muxView = s.muxView) (hN : N) :
    MuxStep P N s.muxView (u.notify added uid).muxView := by
  rw [← hview, State.notify]
  split
  · extract_lets f t
    have hpush : MuxStep P N u.muxView t.muxView :=
      muxStep_pushNotification (u.clientSign f notificationOffset) (.inr hN)
    split <;> exact hpush
  · exact .refl _

/-! ## The instructions -/

/-- The requests of U1 and U2 leave U3 and the ports W, E and R (10_state.md R37). -/
theorem exec_muxView_of_port_c {i : Instr} {s t : State} (hport : i.port = .c) (h : exec i s = .next t) :
    t.muxView = s.muxView := by
  cases i with
  | crc32f n b | crcsign n b | csum n f | csign n f =>
    simp only [exec, execCrc32f, execCrcsign, execCsum, execCsign] at h
    repeat' split at h
    all_goals
      cases h
      rfl
  | pushr | pushn | wake | poll | cmdWake | cmdAckC0 | cmdAckC3 | cmdList | cmdRead | cmdWrite | cmdUnknown =>
    cases hport

/-- POLL holds or is accepted (42_mux.md R189). -/
theorem muxStep_execPoll {n : BitVec 7} {s t : State} (h : execPoll n s = .next t) :
    MuxStep P N s.muxView t.muxView := by
  unfold execPoll at h
  split at h
  · cases h
    exact muxStep_hold s .r (.poll n)
  · cases h
    exact .poll rfl

/-- Running a presented instruction. -/
theorem exec_muxStep {i : Instr} {s t : State} (hP : P i) (h : exec i s = .next t) :
    MuxStep P N s.muxView t.muxView := by
  cases i with
  | crc32f | crcsign | csum | csign =>
    rw [exec_muxView_of_port_c rfl h]
    exact .refl _
  | pushr n f =>
    cases h
    exact muxStep_pushReply s (.inl ⟨n, hP⟩)
  | pushn n f =>
    cases h
    exact muxStep_pushNotification s (.inl ⟨n, hP⟩)
  | wake n =>
    cases h
    exact .wake none (.inl ⟨n, hP⟩) (State.muxView_complete_w _ _)
  | poll n => exact muxStep_execPoll h
  | cmdWake seq => exact muxStep_clientSequence (muxStep_wakeAndReply s _ _ hP) h
  | cmdAckC0 seq | cmdAckC3 seq | cmdRead seq uid sector block =>
    exact muxStep_clientSequence (muxStep_signAndReply s _ _ rfl hP) h
  | cmdList seq =>
    simp only [exec, execCmdList] at h
    split at h
    · exact muxStep_clientSequence (muxStep_signAndReply s _ _ rfl hP) h
    · cases h
  | cmdWrite seq uid sector block payload =>
    refine muxStep_clientSequence ?_ h
    rw [← s.muxView_writeBlock uid sector block payload]
    exact muxStep_signAndReply _ _ _ rfl hP
  | cmdUnknown code =>
    cases h
    exact muxStep_reply s _ rfl hP

/-- Serving a request whose bytes are presented. -/
theorem serveRequest_muxStep {p : PortId} {bytes : List Byte} {s t : State}
    (hP : ∀ i, decodeBytes .request bytes = .ok i → P i) (h : serveRequest p bytes s = .next t) :
    MuxStep P N s.muxView t.muxView := by
  rcases serveRequest_cases p bytes s with ⟨-, e⟩ | e | ⟨i, -, -, e⟩ | ⟨i, hdec, -, e⟩
  · cases e.symm.trans h
    exact muxStep_refuse _ _ _
  · cases e.symm.trans h
  · cases e.symm.trans h
    exact muxStep_refuse _ _ _
  · exact exec_muxStep (hP i hdec) (e.symm.trans h)

/-- An attach waits, or the registry changes and the notification follows. -/
theorem attachFigure_muxStep {blob : Image} {handle : Nat} {wait s t : State}
    (h : attachFigure blob handle wait s = .next t) (hwait : wait.muxView = s.muxView) (hN : N) :
    MuxStep P N s.muxView t.muxView := by
  unfold attachFigure at h
  repeat' split at h
  case h_1 =>
    cases h
    exact .refl s.muxView
  case h_2.isFalse.isFalse.isTrue =>
    cases h
    exact muxStep_notify true _ rfl hN
  case h_2.isFalse.isFalse.isFalse =>
    cases h
    rw [hwait]
    exact .refl _
  all_goals cases h

/-- A detach waits, or the registry changes and the notification follows. -/
theorem detachFigure_muxStep {slot : Nat} {wait s t : State} (h : detachFigure slot wait s = .next t)
    (hwait : wait.muxView = s.muxView) (hN : N) : MuxStep P N s.muxView t.muxView := by
  unfold detachFigure at h
  repeat' split at h
  case isTrue.isTrue.isTrue.isTrue =>
    cases h
    exact muxStep_notify false _ rfl hN
  case isTrue.isTrue.isTrue.isFalse =>
    cases h
    rw [hwait]
    exact .refl _
  case isTrue.isTrue.isFalse =>
    cases h
    exact .refl s.muxView
  all_goals cases h

/-- A figure creation waits, or answers on port C alone. -/
theorem createFigure_muxView {identityType identityId : List Byte} {handle : Nat} {storeOk : Bool} {wait s t : State}
    (h : createFigure identityType identityId handle storeOk wait s = .next t) (hwait : wait.muxView = s.muxView) :
    t.muxView = s.muxView := by
  unfold createFigure at h
  split at h
  · cases h
    exact hwait
  · extract_lets img d u at h
    split at h <;> cases h <;> rfl

end View

/-! ## The turns -/

/-- What a turn of port `p`'s agent, or a turn of no agent, can do: to U3 and its answers what `MuxStep` says, and the
other ports hold what they held if every port holds only requests of its own. -/
structure Took (p : Option PortId) (s t : State) : Prop where
  mux : MuxStep s.presents s.eventNext s.muxView t.muxView
  held : s.HeldOwn → ∀ q, p ≠ some q → t.heldOn q = s.heldOn q

/-- Nothing happens on an agent's turn. -/
theorem Took.refl (p : Option PortId) (s : State) : Took p s s := ⟨.refl _, fun _ _ _ => rfl⟩

/-- Serving a request on port `p` as far as the other ports are concerned. -/
theorem Served.heldOn_of_ne {p : PortId} {s t : State} (h : Served p s t) {q : PortId} (hq : some p ≠ some q) :
    t.heldOn q = s.heldOn q := h.held q fun e => hq (e ▸ rfl)

/-- A holding request run again. -/
theorem took_of_held {p : PortId} {i : Instr} {s t : State} (hheld : s.heldOn p = some i) (h : exec i s = .next t) :
    Took (some p) s t where
  mux := exec_muxStep (.inl ⟨p, hheld⟩) h
  held hown _ hq := (exec_served h).heldOn_of_ne (hown p i hheld ▸ hq)

/-- A job taken from the script of port `p`, after which `u` is left to serve it, unless it waits. -/
theorem took_of_job {p : PortId} {s u t : State} (hmux : MuxStep s.presents s.eventNext u.muxView t.muxView)
    (hserved : t = s ∨ Served p u t) (hview : u.muxView = s.muxView) (hheld : u.heldOn = s.heldOn) :
    Took (some p) s t where
  mux := hview ▸ hmux
  held _ q hq := by
    rcases hserved with rfl | hserved
    · rfl
    · rw [hserved.heldOn_of_ne hq, hheld]

/-- A request taken from a script. -/
theorem took_of_request {p : PortId} {bytes : List Byte} {s u t : State} (hnext : s.requestNext bytes)
    (h : serveRequest p bytes u = .next t) (hview : u.muxView = s.muxView) (hheld : u.heldOn = s.heldOn) :
    Took (some p) s t :=
  took_of_job (serveRequest_muxStep (fun _ hdec => .inr (.inl ⟨bytes, hnext, hdec⟩)) h)
    (.inr (serveRequest_served h)) hview hheld

/-- Leaving the region after a turn. -/
theorem Took.leaves {p : Option PortId} {s u t : State} (h : Took p s u) (hview : t.muxView = u.muxView)
    (hheld : t.heldOn = u.heldOn) : Took p s t where
  mux := hview ▸ h.mux
  held := hheld ▸ h.held

/-- The Writer leaving the region holds what it held. -/
theorem State.writerLeaves_heldOn (s : State) : s.writerLeaves.heldOn = s.heldOn := by
  unfold State.writerLeaves
  split <;> rfl

/-- Likewise the Event agent. -/
theorem State.eventLeaves_heldOn (s : State) : s.eventLeaves.heldOn = s.heldOn := by
  unfold State.eventLeaves
  split <;> rfl

/-- Port C's turn. -/
theorem computeTurn_took {s t : State} (h : computeTurn s = .next t) : Took (some .c) s t := by
  unfold computeTurn at h
  split at h
  · rename_i i hheld
    exact took_of_held (p := .c) hheld h
  · split at h
    · cases h
      exact .refl _ _
    · rename_i bytes rest hscript
      exact took_of_request (.inl (by rw [hscript]; rfl)) h rfl rfl
    · exact took_of_job (createFigure_muxView h rfl ▸ .refl _) (createFigure_served h) rfl rfl

/-- Port W's turn. -/
theorem writerTurn_took {s t : State} (h : writerTurn s = .next t) : Took (some .w) s t := by
  unfold writerTurn at h
  split at h
  · rename_i i hheld
    split at h
    · cases h
      exact .refl _ _
    · obtain ⟨u, hexec, rfl⟩ := mapNext_eq_next.1 h
      exact (took_of_held (p := .w) hheld hexec).leaves u.muxView_writerLeaves u.writerLeaves_heldOn
  · split at h
    · cases h
      exact .refl _ _
    · rename_i bytes rest hscript
      exact took_of_request (.inr (.inl (by rw [hscript]; rfl))) h rfl rfl
    · rename_i cmd rest hscript
      split at h
      · have hpresents : s.presents (decodeCommand cmd.toList) := .inr (.inr ⟨cmd, by rw [hscript]; rfl, rfl⟩)
        exact took_of_job (exec_muxStep hpresents h) (.inr (decodeCommand_port cmd.toList ▸ exec_served h)) rfl rfl
      · cases h
        exact .refl _ _

/-- Port E's turn. -/
theorem eventTurn_took {s t : State} (h : eventTurn s = .next t) : Took (some .e) s t := by
  unfold eventTurn at h
  split at h
  · rename_i i hheld
    obtain ⟨u, hexec, rfl⟩ := mapNext_eq_next.1 h
    exact (took_of_held (p := .e) hheld hexec).leaves u.muxView_eventLeaves u.eventLeaves_heldOn
  · split at h
    · cases h
      exact .refl _ _
    · rename_i bytes rest hscript
      exact took_of_request (.inr (.inr (.inl (by rw [hscript]; rfl)))) h rfl rfl
    · rename_i blob handle rest hscript
      split at h
      · have hnext : s.eventNext := .inl ⟨blob, handle, by rw [hscript]; rfl⟩
        exact took_of_job (attachFigure_muxStep h rfl hnext) (attachFigure_served h) rfl rfl
      · cases h
        exact .refl _ _
    · rename_i slot rest hscript
      split at h
      · have hnext : s.eventNext := .inr ⟨slot, by rw [hscript]; rfl⟩
        exact took_of_job (detachFigure_muxStep h rfl hnext) (detachFigure_served h) rfl rfl
      · cases h
        exact .refl _ _

/-- Port R's turn: the host's Read asks as a POLL does (43_client_sequences.md R220). -/
theorem readerTurn_took {s t : State} (h : readerTurn s = .next t) : Took (some .r) s t := by
  unfold readerTurn at h
  split at h
  · cases h
    exact .refl _ _
  · split at h
    · rename_i i hheld
      exact took_of_held (p := .r) hheld h
    · split at h
      · cases h
        exact .refl _ _
      · rename_i bytes rest hscript
        exact took_of_request (.inr (.inr (.inr (by rw [hscript]; rfl)))) h rfl rfl
      · split at h
        · exact took_of_job (muxStep_execPoll h) (.inr (execPoll_served h)) rfl rfl
        · cases h

/-- One arbitration attempt (42_mux.md R191, R194). -/
theorem deliver_took (s : State) : Took none s s.deliver := by
  refine ⟨?_, fun _ q _ => (progress_deliver s).held q⟩
  rcases s.deliver_cases with ⟨-, e⟩ | ⟨hp, f, u, htake, e⟩ | ⟨-, -, e⟩
  · rw [e]
    exact .refl _
  · rw [e]
    exact .delivery f u hp htake (s.muxView_emit_r u f)
  · rw [e]
    exact .quiet 0 s.portW.held s.portE.held rfl

/-- One tick of the backoff counter. -/
theorem backoffTick_took (s : State) : Took none s s.backoffTick := by
  refine ⟨?_, fun _ q _ => (progress_backoffTick s).held q⟩
  rw [s.backoffTick_eq]
  exact .quiet _ s.portW.held s.portE.held rfl

/-- The port whose agent's turn it is. -/
def Turn.port? : Turn → Option PortId
  | .compute => some .c
  | .writer => some .w
  | .event => some .e
  | .reader => some .r
  | .deliver => none
  | .tick => none
  | .hostCall _ => none
  | .rst => none

/-- Every turn but `rst`. -/
theorem performTurn_took {turn : Turn} {s t : State} (hrst : turn ≠ .rst) (h : performTurn turn s = .next t) :
    Took turn.port? s t := by
  cases turn with
  | compute => exact computeTurn_took h
  | writer => exact writerTurn_took h
  | event => exact eventTurn_took h
  | reader => exact readerTurn_took h
  | deliver =>
    cases h
    exact deliver_took s
  | tick =>
    cases h
    exact backoffTick_took s
  | hostCall c =>
    cases h
    exact .refl _ _
  | rst => exact absurd rfl hrst

/-- Every step but one that asserts `rst`: the next turn is taken from the schedule, then it is performed. -/
theorem step_took {s t : State} (h : step s = .next t) (hrst : s.resetNext = false) :
    Took s.nextTurn.port? s.turnTaken t :=
  performTurn_took (State.nextTurn_ne_rst hrst) ((step_eq_performTurn s).symm.trans h)

/-- What such a step does to U3 and its answers, told from the state before it. -/
theorem step_muxStep {s t : State} (h : step s = .next t) (hrst : s.resetNext = false) :
    MuxStep s.presents s.eventNext s.turnTaken.muxView t.muxView := (step_took h hrst).mux

/-! ## The moves of the queues -/

/-- What a delivery takes: the oldest notification while awake, or the oldest reply with no notification eligible
(42_mux.md R191). -/
theorem U3.pollDeliver_some {u v : U3} {f : Frame} (h : u.pollDeliver = some (f, v)) :
    v.pstate = .idle ∧
      (u.awake = true ∧ u.nq = f :: v.nq ∧ v.rq = u.rq ∨
        (u.awake = false ∨ u.nq = []) ∧ u.rq = f :: v.rq ∧ v.nq = u.nq) := by
  rcases u.pollDeliver_cases with ⟨g, rest, hawake, hnq, e⟩ | ⟨g, rest, hno, hrq, e⟩ | ⟨-, -, e⟩
  · cases e.symm.trans h
    exact ⟨rfl, .inl ⟨hawake, hnq, rfl⟩⟩
  · cases e.symm.trans h
    exact ⟨rfl, .inr ⟨hno, hrq, rfl⟩⟩
  · cases e.symm.trans h

/-- The equations between the two views, field by field. -/
theorem State.muxView_eq_iff (t : State) (v : MuxView) : t.muxView = v ↔
    t.schedule = v.schedule ∧ t.u3 = v.u3 ∧ t.okCount .w = v.okW ∧ t.okCount .e = v.okE ∧
      t.portW.held = v.heldW ∧ t.portE.held = v.heldE ∧ t.delivered = v.delivered := by
  cases v
  simp only [State.muxView, MuxView.mk.injEq]

/-- Settles O36: the cases of `MuxStep` are those of `QueueMove`; a WAKE and what is quiet leave the queues. -/
theorem everyStepMovesTheQueuesByTheRules : Obligations.EveryStepMovesTheQueuesByTheRules := by
  intro s t hstep hrst
  cases step_muxStep hstep hrst with
  | quiet bcnt hw he h | poll h =>
    obtain ⟨-, hu3, hokW, hokE, -, -, hdel⟩ := (t.muxView_eq_iff _).1 h
    exact ⟨.quiet, .quiet (hu3 ▸ rfl) (hu3 ▸ rfl) hdel hokE (.inl hokW)⟩
  | wake hw hp h =>
    obtain ⟨-, hu3, hokW, hokE, -, -, hdel⟩ := (t.muxView_eq_iff _).1 h
    exact ⟨.quiet, .quiet (hu3 ▸ rfl) (hu3 ▸ rfl) hdel hokE (.inr ⟨hokW, hu3 ▸ rfl, hp⟩)⟩
  | reply f hp h =>
    obtain ⟨-, hu3, hokW, hokE, hheldW, -, hdel⟩ := (t.muxView_eq_iff _).1 h
    exact ⟨.pushR f, .pushR f (hu3 ▸ rfl) (hu3 ▸ rfl) hdel hokE (hokW ▸ Nat.lt_succ_self (s.okCount .w)) hheldW hp⟩
  | wakeReply f seq hp h =>
    obtain ⟨-, hu3, hokW, hokE, hheldW, -, hdel⟩ := (t.muxView_eq_iff _).1 h
    exact ⟨.pushR f, .pushR f (hu3 ▸ rfl) (hu3 ▸ rfl) hdel hokE
      (hokW ▸ Nat.lt_add_of_pos_right (n := s.okCount .w) Nat.two_pos) hheldW (.inr ⟨_, rfl, hp⟩)⟩
  | notification f hp h =>
    obtain ⟨-, hu3, hokW, hokE, -, hheldE, hdel⟩ := (t.muxView_eq_iff _).1 h
    exact ⟨.pushN f, .pushN f (hu3 ▸ rfl) (hu3 ▸ rfl) hdel hokE hokW hheldE hp⟩
  | delivery f u hpend htake h =>
    obtain ⟨-, hu3, hokW, hokE, -, -, hdel⟩ := (t.muxView_eq_iff _).1 h
    obtain ⟨-, ⟨hawake, hnq, hrq⟩ | ⟨hno, hrq, hnq⟩⟩ := U3.pollDeliver_some htake
    · exact ⟨.popN f, .popN f (hu3 ▸ hrq) (hu3 ▸ hnq) hdel hokE hokW hawake⟩
    · exact ⟨.popR f, .popR f (hu3 ▸ hrq) (hu3 ▸ hnq) hdel hokE hokW hno⟩

/-- Settles O33: a WAKE leaves the queues, a push leaves `awake` or appends to the reply queue, and a waiting POLL has
nothing to take. -/
theorem onlyPushesAndWakeLiftTheWait : Obligations.OnlyPushesAndWakeLiftTheWait := by
  intro s t hstep hrst hp hd hlifted
  obtain ⟨hno, hrq⟩ := s.u3.deliverable_eq_false_iff.1 hd
  cases step_muxStep hstep hrst with
  | quiet bcnt hw he h | poll h =>
    obtain ⟨-, hu3, -⟩ := (t.muxView_eq_iff _).1 h
    have hsame : t.u3.deliverable = s.u3.deliverable := hu3 ▸ rfl
    rw [hsame, hd] at hlifted
    cases hlifted
  | wake hw hpr h =>
    obtain ⟨-, hu3, -⟩ := (t.muxView_eq_iff _).1 h
    have hawake : t.u3.awake = true := hu3 ▸ rfl
    rw [show t.u3 = s.u3.wakeUp from hu3, U3.deliverable_iff] at hlifted
    have hnq : s.u3.nq ≠ [] := by simpa [hrq, List.length_pos_iff] using hlifted
    exact ⟨hu3 ▸ hp, .inr (.inr ⟨hno.resolve_right hnq, hawake, hnq⟩)⟩
  | reply f hpr h =>
    obtain ⟨-, hu3, -⟩ := (t.muxView_eq_iff _).1 h
    exact ⟨hu3 ▸ hp, .inl ⟨f, hu3 ▸ rfl⟩⟩
  | wakeReply f seq hpr h =>
    obtain ⟨-, hu3, -⟩ := (t.muxView_eq_iff _).1 h
    exact ⟨hu3 ▸ hp, .inl ⟨f, hu3 ▸ rfl⟩⟩
  | notification f hpr h =>
    obtain ⟨-, hu3, -⟩ := (t.muxView_eq_iff _).1 h
    rw [show t.u3 = s.u3.pushN f from hu3, U3.deliverable_iff] at hlifted
    have hawake : s.u3.awake = true := by simpa [hrq] using hlifted
    exact ⟨hu3 ▸ hp, .inr (.inl ⟨hawake, f, hu3 ▸ rfl⟩)⟩
  | delivery f u hpend htake h =>
    rw [show s.turnTaken.muxView.u3 = s.u3 from rfl, U3.pollDeliver_eq_none hd] at htake
    cases htake

/-- Settles O34: only a delivery takes a notification away, and only while awake. -/
theorem asleepNoNotificationIsDelivered : Obligations.AsleepNoNotificationIsDelivered := by
  intro s t hstep hrst hasleep
  obtain ⟨m, hmove⟩ := everyStepMovesTheQueuesByTheRules s t hstep hrst
  cases hmove with
  | quiet _ hn | pushR _ _ hn | popR _ _ hn => exact hn ▸ List.prefix_rfl
  | pushN f _ hn => exact hn ▸ List.prefix_append _ _
  | popN _ _ _ _ _ _ haw =>
    rw [hasleep] at haw
    cases haw

end Sys2Proof.Machine
end

section
/-!
PROOFS. The statements of the family 42_mux.md about runs: what every run conserves, by the moves of its steps, and weak
fairness, by a measure of what may still come first.
-/

namespace Sys2Proof.Machine

/-! ## Conservation -/

/-- The moves account for what the queues hold, for what was delivered and for the answers of port E (42_mux.md R198). -/
structure Conserves (s t : State) (ms : List Move) : Prop where
  replies : s.u3.rq ++ pushedReplies ms = poppedReplies ms ++ t.u3.rq
  notifications : s.u3.nq ++ pushedNotifications ms = poppedNotifications ms ++ t.u3.nq
  delivered : t.delivered = s.delivered ++ poppedFrames ms
  okE : t.okCount .e = s.okCount .e + (pushedNotifications ms).length

theorem Conserves.refl (s : State) : Conserves s s [] where
  replies := List.append_nil _
  notifications := List.append_nil _
  delivered := (List.append_nil _).symm
  okE := rfl

/-- A queue whose pushes and pops are accounted for twice in a row. -/
theorem append_queue {q q' q'' p p' d d' : List Frame} (h : q ++ p = d ++ q') (h' : q' ++ p' = d' ++ q'') :
    q ++ (p ++ p') = d ++ d' ++ q'' := by
  rw [← List.append_assoc, h, List.append_assoc, h', List.append_assoc]

theorem Conserves.trans {s u t : State} {ms ms' : List Move} (h : Conserves s u ms) (h' : Conserves u t ms') :
    Conserves s t (ms ++ ms') where
  replies := by
    simpa only [pushedReplies, poppedReplies, List.filterMap_append] using append_queue h.replies h'.replies
  notifications := by
    simpa only [pushedNotifications, poppedNotifications, List.filterMap_append] using
      append_queue h.notifications h'.notifications
  delivered := by
    rw [h'.delivered, h.delivered]
    simp only [poppedFrames, List.filterMap_append, List.append_assoc]
  okE := by
    rw [h'.okE, h.okE]
    simp only [pushedNotifications, List.filterMap_append, List.length_append, Nat.add_assoc]

/-- One move. -/
theorem QueueMove.conserves {s t : State} {m : Move} (h : QueueMove s t m) : Conserves s t [m] := by
  cases h with
  | quiet hr hn hd he | pushR f hr hn hd he | pushN f hr hn hd he | popR f hr hn hd he | popN f hr hn hd he =>
    exact ⟨by simp [pushedReplies, poppedReplies, hr], by simp [pushedNotifications, poppedNotifications, hn],
      by simp [poppedFrames, hd], by simp [pushedNotifications, he]⟩

/-- All moves of a run. -/
theorem MovesTo.conserves {ms : List Move} {s t : State} (h : MovesTo ms s t) : Conserves s t ms := by
  induction h with
  | refl s => exact .refl s
  | step _ _ hm _ ih => exact hm.conserves.trans ih

/-- A run has a state after each of its first moves. -/
theorem MovesTo.split {pre suf : List Move} {s t : State} (h : MovesTo (pre ++ suf) s t) :
    ∃ u, MovesTo pre s u ∧ MovesTo suf u t := by
  induction pre generalizing s with
  | nil => exact ⟨s, .refl s, h⟩
  | cons m pre ih =>
    cases h with
    | step hstep hrst hm hrest =>
      obtain ⟨u, hpre, hsuf⟩ := ih hrest
      exact ⟨u, .step hstep hrst hm hpre, hsuf⟩

/-- At every point of a run what was delivered is the beginning of what was queued and pushed. -/
theorem MovesTo.delivers_in_order {pre suf : List Move} {s t : State} (h : MovesTo (pre ++ suf) s t) :
    poppedReplies pre <+: s.u3.rq ++ pushedReplies pre ∧
      poppedNotifications pre <+: s.u3.nq ++ pushedNotifications pre := by
  obtain ⟨u, hpre, -⟩ := h.split
  have hc := hpre.conserves
  exact ⟨⟨_, hc.replies.symm⟩, ⟨_, hc.notifications.symm⟩⟩

/-- Every step of a run makes a move (see O36). -/
theorem RunsTo.exists_moves {k : Nat} {s t : State} (h : RunsTo k s t) : ∃ ms, ms.length = k ∧ MovesTo ms s t := by
  induction h with
  | refl s => exact ⟨[], rfl, .refl s⟩
  | step hstep hrst _ ih =>
    obtain ⟨m, hm⟩ := everyStepMovesTheQueuesByTheRules _ _ hstep hrst
    obtain ⟨ms, hlen, hms⟩ := ih
    exact ⟨m :: ms, congrArg (· + 1) hlen, .step hstep hrst hm hms⟩

/-- Each delivered frame is a reply or a notification. -/
theorem poppedFrames_perm (ms : List Move) :
    (poppedFrames ms).Perm (poppedReplies ms ++ poppedNotifications ms) := by
  induction ms with
  | nil => exact .refl _
  | cons m ms ih =>
    cases m with
    | quiet | pushR f | pushN f => exact ih
    | popR f => exact ih.cons f
    | popN f => exact (ih.cons f).trans List.perm_middle.symm

/-- The frames are counted (R198 b). -/
theorem Conserves.count {s t : State} {ms : List Move} (h : Conserves s t ms) :
    t.u3.rq.length + t.u3.nq.length + (poppedFrames ms).length =
      s.u3.rq.length + s.u3.nq.length + (pushedReplies ms).length + (pushedNotifications ms).length := by
  have hr := congrArg List.length h.replies
  have hn := congrArg List.length h.notifications
  have hd := (poppedFrames_perm ms).length_eq
  simp only [List.length_append] at hr hn hd
  omega

/-- A run that began awake ends awake (10_state.md R39). -/
theorem MovesTo.awake {ms : List Move} {s t : State} (h : MovesTo ms s t) : s.u3.awake = true → t.u3.awake = true := by
  induction h with
  | refl s => exact id
  | step hstep hrst _ _ ih => exact fun hawake => ih (awakeIsMonotone _ _ hstep hrst hawake)

/-- A run that ends asleep delivers no notification (42_mux.md R197). -/
theorem MovesTo.no_notification_delivered {ms : List Move} {s t : State} (h : MovesTo ms s t)
    (hasleep : t.u3.awake = false) : poppedNotifications ms = [] := by
  induction h with
  | refl s => rfl
  | @step m ms s u t hstep hrst hm hrest ih =>
    cases hm with
    | quiet | pushR | pushN | popR => exact ih hasleep
    | popN f _ _ _ _ _ hawake =>
      have : t.u3.awake = true := hrest.awake (awakeIsMonotone s u hstep hrst hawake)
      rw [hasleep] at this
      cases this

/-- Settles O37: the moves of the run's steps, which conserve frames one by one. -/
theorem runsConserveFramesInOrder : Obligations.RunsConserveFramesInOrder := by
  intro k s t hrun
  obtain ⟨ms, hlen, hms⟩ := hrun.exists_moves
  have hc := hms.conserves
  exact ⟨ms, hlen, hms, fun pre suf hsplit => MovesTo.delivers_in_order (hsplit ▸ hms), hc.replies, hc.notifications,
    hc.delivered, poppedFrames_perm ms, hc.okE, hc.count, fun _ => hms.no_notification_delivered⟩

/-! ## Weak fairness -/

/-- How many moves may come before the block serves a holding push by itself: the schedule, then a held PUSHN and a
pending POLL, which outweigh no turn of the schedule (log entry 6). -/
def State.ahead (s : State) : Nat :=
  4 * s.schedule.length + 2 * s.portE.held.isSome.toNat + s.u3.pollPending.toNat

/-- While the schedule lasts each step comes one move closer. -/
theorem ahead_lt_of_schedule {s t : State} (hsched : s.schedule ≠ []) (h : t.schedule = s.schedule.tail) :
    t.ahead < s.ahead := by
  have hlen : 0 < s.schedule.length := List.length_pos_iff.2 hsched
  have hheld := t.portE.held.isSome.toNat_le
  have hpending := t.u3.pollPending.toNat_le
  simp only [State.ahead, h, List.length_tail]
  omega

/-- In an endless run what every step either keeps, coming closer, or ends, is ended by some step. -/
theorem EndlessRun.eventually {r : Nat → State} (hr : EndlessRun r) {Waits : State → Prop} {Ends : State → State → Prop}
    (hstep : ∀ s t, step s = .next t → s.resetNext = false → Waits s → Ends s t ∨ (Waits t ∧ t.ahead < s.ahead))
    {k : Nat} (hk : Waits (r k)) : ∃ j, k ≤ j ∧ Ends (r j) (r (j + 1)) := by
  induction hn : (r k).ahead using Nat.strong_induction_on generalizing k with
  | _ n ih =>
    rcases hstep _ _ (hr k).1 (hr k).2 hk with hends | ⟨hwaits, hlt⟩
    · exact ⟨k, le_rfl, hends⟩
    · obtain ⟨j, hj, hends⟩ := ih _ (hn ▸ hlt) hwaits rfl
      exact ⟨j, (Nat.le_succ k).trans hj, hends⟩

/-- The turn is taken from the schedule and nothing else of it. -/
theorem step_schedule {s t : State} (h : step s = .next t) (hrst : s.resetNext = false) :
    t.schedule = s.schedule.tail := (step_muxStep h hrst).schedule_eq

/-! ## An enabled delivery -/

/-- What is deliverable for a pending POLL is delivered or stays so (42_mux.md R194). -/
theorem MuxStep.delivers_or_stays {P : Instr → Prop} {N : Prop} {v w : MuxView} (h : MuxStep P N v w)
    (hp : v.u3.pstate = .pending) (hd : v.u3.deliverable = true) :
    (∃ f, w.delivered = v.delivered ++ [f] ∧ w.u3.pstate = .idle) ∨
      (w.u3.pstate = .pending ∧ w.u3.deliverable = true) := by
  rw [U3.deliverable_iff] at hd
  cases h with
  | quiet bcnt hw he h | reply f hpr h | notification f hpr h =>
    subst w
    refine .inr ⟨hp, (U3.deliverable_iff _).2 (hd.imp (.imp_right fun hpos => ?_) fun hpos => ?_)⟩
    · simp [hpos]
    · simp [hpos]
  | poll h =>
    subst w
    exact .inr ⟨rfl, (U3.deliverable_iff _).2 hd⟩
  | wake hw hpr h =>
    subst w
    exact .inr ⟨hp, (U3.deliverable_iff _).2 (hd.imp_left fun ⟨_, hnq⟩ => ⟨rfl, hnq⟩)⟩
  | wakeReply f seq hpr h =>
    subst w
    exact .inr ⟨hp, (U3.deliverable_iff _).2 (.inr (by simp))⟩
  | delivery f u hpend htake h =>
    subst w
    exact .inl ⟨f, rfl, (U3.pollDeliver_some htake).1⟩

/-- Past the schedule's end an enabled delivery is the next move. -/
theorem step_of_enabled_delivery {s : State} (hnil : s.schedule = []) (hp : s.u3.pstate = .pending)
    (hd : s.u3.deliverable = true) :
    ∃ f v, v.pstate = .idle ∧ step s = .next
      { s with
        schedule := s.schedule.tail
        u3 := v
        portR := { s.portR with out := s.portR.out ++ [.ok (.frame f)] } } := by
  obtain ⟨f, v, htake, hidle⟩ := U3.pollDeliver_of_deliverable hd
  have hturn : s.nextTurn = .deliver := (s.nextTurn_of_nil hnil).trans (State.idleTurn_of_deliverable hp hd)
  exact ⟨f, v, hidle, step_of_delivery hturn hp htake⟩

/-- A step from a state with an enabled delivery. -/
theorem step_delivers_or_stays {s t : State} (hstep : step s = .next t) (hrst : s.resetNext = false)
    (hwaits : s.u3.pstate = .pending ∧ s.u3.deliverable = true) :
    (∃ f, t.delivered = s.delivered ++ [f] ∧ t.u3.pstate = .idle) ∨
      ((t.u3.pstate = .pending ∧ t.u3.deliverable = true) ∧ t.ahead < s.ahead) := by
  obtain ⟨hp, hd⟩ := hwaits
  refine ((step_muxStep hstep hrst).delivers_or_stays hp hd).imp_right fun hstays => ⟨hstays, ?_⟩
  refine ahead_lt_of_schedule (fun hnil => ?_) (step_schedule hstep hrst)
  obtain ⟨f, v, hidle, hdeliver⟩ := step_of_enabled_delivery hnil hp hd
  cases hdeliver.symm.trans hstep
  exact absurd (hstays.1.symm.trans hidle) nofun

/-! ## A push that holds -/

/-- What fits still fits with fewer frames. -/
theorem Depth.fits_of_le {d : Depth} {m n : Nat} (hle : m ≤ n) (h : d.fits n = true) : d.fits m = true := by
  cases d with
  | unbounded => rfl
  | frames extra => exact decide_eq_true (hle.trans (of_decide_eq_true h))

/-- Only an accepted PUSHR, which leaves port W free, makes the reply queue longer. -/
theorem MuxStep.rq_length_le {P : Instr → Prop} {N : Prop} {v w : MuxView} (h : MuxStep P N v w)
    (hheld : w.heldW ≠ none) : w.u3.rq.length ≤ v.u3.rq.length := by
  cases h with
  | quiet _ _ _ h | poll h | wake _ _ h | notification _ _ h =>
    subst w
    exact le_rfl
  | reply _ _ h | wakeReply _ _ _ h =>
    subst w
    exact absurd rfl hheld
  | delivery f u _ htake h =>
    subst w
    obtain ⟨-, ⟨-, -, hrq⟩ | ⟨-, hrq, -⟩⟩ := U3.pollDeliver_some htake <;> simp [hrq]

/-- Only an accepted PUSHN, which leaves port E free, makes the notification queue longer. -/
theorem MuxStep.nq_length_le {P : Instr → Prop} {N : Prop} {v w : MuxView} (h : MuxStep P N v w)
    (hheld : w.heldE ≠ none) : w.u3.nq.length ≤ v.u3.nq.length := by
  cases h with
  | quiet _ _ _ h | poll h | wake _ _ h | reply _ _ h | wakeReply _ _ _ h =>
    subst w
    exact le_rfl
  | notification _ _ h =>
    subst w
    exact absurd rfl hheld
  | delivery f u _ htake h =>
    subst w
    obtain ⟨-, ⟨-, hnq, -⟩ | ⟨-, -, hnq⟩⟩ := U3.pollDeliver_some htake <;> simp [hnq]

/-- A PUSHR that holds on port W is ready when the reply queue has room. -/
theorem State.ready_pushr {s : State} {n : BitVec 7} {f : Frame} (hheld : s.portW.held = some (.pushr n f))
    (hfits : s.params.rqDepth.fits (s.u3.rq.length + 1) = true) : s.ready .w s.portW.held = true := by
  simp [hheld, State.ready, State.accepts, State.commandWaits, Instr.port, Op.port, Instr.wire, hasRoom_iff, hfits]

/-- What is ready on port E is a PUSHN whose queue has room. -/
theorem State.ready_e_iff (s : State) : s.ready .e s.portE.held = true ↔
    ∃ n f, s.portE.held = some (.pushn n f) ∧ s.params.nqDepth.fits (s.u3.nq.length + 1) = true := by
  rcases s.portE.held with _ | i
  · simp [State.ready_none]
  · cases i <;>
      simp [State.ready, State.accepts, State.commandWaits, Instr.port, Op.port, Instr.wire, hasRoom_iff]

/-- A delivery that the block makes by itself comes one move closer: no POLL is pending afterwards. -/
theorem ahead_lt_of_delivery {s t : State} (hstep : step s = .next t) (hnil : s.schedule = [])
    (hp : s.u3.pstate = .pending) (hd : s.u3.deliverable = true) : t.ahead < s.ahead := by
  obtain ⟨f, v, hidle, hdeliver⟩ := step_of_enabled_delivery hnil hp hd
  cases hdeliver.symm.trans hstep
  simp [State.ahead, hnil, U3.pollPending, hp, hidle]

/-- A PUSHN that the block accepts by itself comes one move closer: port E is free afterwards. -/
theorem ahead_lt_of_pushn {s t : State} (hstep : step s = .next t) (hnil : s.schedule = [])
    (hturn : s.idleTurn = .event) (hready : s.ready .e s.portE.held = true) : t.ahead < s.ahead := by
  obtain ⟨n, f, hheld, hfits⟩ := s.ready_e_iff.1 hready
  rw [step_of_schedule_nil hnil, hturn] at hstep
  cases (eventTurn_of_pushn hheld hfits).symm.trans hstep
  simp [State.ahead, hnil, hheld, U3.pollPending]

/-- Port W is the Writer's alone. -/
theorem Turn.port?_ne_w {turn : Turn} (h : turn ≠ .writer) : turn.port? ≠ some .w := by
  cases turn with
  | writer => exact absurd rfl h
  | compute | event | reader | deliver | tick | hostCall | rst => nofun

/-- Port E is the Event agent's alone. -/
theorem Turn.port?_ne_e {turn : Turn} (h : turn ≠ .event) : turn.port? ≠ some .e := by
  cases turn with
  | event => exact absurd rfl h
  | compute | writer | reader | deliver | tick | hostCall | rst => nofun

/-- A PUSHR holds on port W though its queue has room. -/
structure State.PushrWaits (n : BitVec 7) (f : Frame) (s : State) : Prop where
  own : s.HeldOwn
  held : s.portW.held = some (.pushr n f)
  fits : s.params.rqDepth.fits (s.u3.rq.length + 1) = true

/-- A PUSHN holds on port E though its queue has room. -/
structure State.PushnWaits (n : BitVec 7) (f : Frame) (s : State) : Prop where
  own : s.HeldOwn
  held : s.portE.held = some (.pushn n f)
  fits : s.params.nqDepth.fits (s.u3.nq.length + 1) = true

/-- Another turn than the Writer's leaves such a PUSHR as it is. -/
theorem State.PushrWaits.stays {n : BitVec 7} {f : Frame} {s t : State} (h : s.PushrWaits n f)
    (hstep : step s = .next t) (hrst : s.resetNext = false) (hturn : s.nextTurn ≠ .writer) : t.PushrWaits n f := by
  have htook := step_took hstep hrst
  have hmoved := step_moved hrst hstep
  have hheld : t.portW.held = some (.pushr n f) := (htook.held h.own .w (Turn.port?_ne_w hturn)).trans h.held
  have hlen : t.u3.rq.length ≤ s.u3.rq.length := htook.mux.rq_length_le fun hfree => nomatch hheld.symm.trans hfree
  refine ⟨hmoved.heldOwn h.own, hheld, ?_⟩
  rw [hmoved.keeps.params]
  exact Depth.fits_of_le (Nat.add_le_add_right hlen 1) h.fits

/-- Another turn than the Event agent's leaves such a PUSHN as it is. -/
theorem State.PushnWaits.stays {n : BitVec 7} {f : Frame} {s t : State} (h : s.PushnWaits n f)
    (hstep : step s = .next t) (hrst : s.resetNext = false) (hturn : s.nextTurn ≠ .event) : t.PushnWaits n f := by
  have htook := step_took hstep hrst
  have hmoved := step_moved hrst hstep
  have hheld : t.portE.held = some (.pushn n f) := (htook.held h.own .e (Turn.port?_ne_e hturn)).trans h.held
  have hlen : t.u3.nq.length ≤ s.u3.nq.length := htook.mux.nq_length_le fun hfree => nomatch hheld.symm.trans hfree
  refine ⟨hmoved.heldOwn h.own, hheld, ?_⟩
  rw [hmoved.keeps.params]
  exact Depth.fits_of_le (Nat.add_le_add_right hlen 1) h.fits

/-- A step while such a PUSHR holds: the Writer's turn accepts it, another turn comes closer to it. Past the schedule's
end only a delivery and a PUSHN go first. -/
theorem State.PushrWaits.accepted_or_closer {n : BitVec 7} {f : Frame} {s t : State} (hstep : step s = .next t)
    (hrst : s.resetNext = false) (h : s.PushrWaits n f) :
    (t.u3.rq = s.u3.rq ++ [f] ∧ t.portW.held = none ∧ t.portW.out = s.portW.out ++ [.ok .none]) ∨
      (t.PushrWaits n f ∧ t.ahead < s.ahead) := by
  by_cases hturn : s.nextTurn = .writer
  · rw [step_eq_performTurn, hturn] at hstep
    cases (writerTurn_of_pushr (s := s.turnTaken) h.held h.fits).symm.trans hstep
    exact .inl ⟨rfl, rfl, rfl⟩
  · refine .inr ⟨h.stays hstep hrst hturn, ?_⟩
    by_cases hnil : s.schedule = []
    · rw [s.nextTurn_of_nil hnil] at hturn
      rcases s.idleTurn_cases with ⟨-, hp, hd⟩ | ⟨-, ⟨hevent, hready⟩ | ⟨-, ⟨hwriter, -⟩ | ⟨hnot, -⟩⟩⟩
      · exact ahead_lt_of_delivery hstep hnil hp hd
      · exact ahead_lt_of_pushn hstep hnil hevent hready
      · exact absurd hwriter hturn
      · rw [State.ready_pushr h.held h.fits] at hnot
        cases hnot
    · exact ahead_lt_of_schedule hnil (step_schedule hstep hrst)

/-- A step while such a PUSHN holds: the Event agent's turn accepts it, another turn comes closer to it. Past the
schedule's end only a delivery goes first. -/
theorem State.PushnWaits.accepted_or_closer {n : BitVec 7} {f : Frame} {s t : State} (hstep : step s = .next t)
    (hrst : s.resetNext = false) (h : s.PushnWaits n f) :
    (t.u3.nq = s.u3.nq ++ [f] ∧ t.portE.held = none ∧ t.portE.out = s.portE.out ++ [.ok .none]) ∨
      (t.PushnWaits n f ∧ t.ahead < s.ahead) := by
  by_cases hturn : s.nextTurn = .event
  · rw [step_eq_performTurn, hturn] at hstep
    cases (eventTurn_of_pushn (s := s.turnTaken) h.held h.fits).symm.trans hstep
    exact .inl ⟨rfl, rfl, rfl⟩
  · refine .inr ⟨h.stays hstep hrst hturn, ?_⟩
    by_cases hnil : s.schedule = []
    · rw [s.nextTurn_of_nil hnil] at hturn
      rcases s.idleTurn_cases with ⟨-, hp, hd⟩ | ⟨-, ⟨hevent, -⟩ | ⟨hnot, -⟩⟩
      · exact ahead_lt_of_delivery hstep hnil hp hd
      · exact absurd hevent hturn
      · rw [s.ready_e_iff.2 ⟨n, f, h.held, h.fits⟩] at hnot
        cases hnot
    · exact ahead_lt_of_schedule hnil (step_schedule hstep hrst)

/-- Settles O60: each of the three waits ends when nothing can come first any more. -/
theorem everyEndlessRunIsWeaklyFair : Obligations.EveryEndlessRunIsWeaklyFair := by
  refine fun r k hr hown => ⟨fun hp hd => ?_, fun n f hheld hfits => ?_, fun n f hheld hfits => ?_⟩
  · obtain ⟨j, hj, f, hdel, hidle⟩ := hr.eventually (fun _ _ => step_delivers_or_stays) ⟨hp, hd⟩
    exact ⟨j, f, hj, hdel, hidle⟩
  · exact hr.eventually (fun _ _ => State.PushrWaits.accepted_or_closer (n := n)) ⟨hown, hheld, hfits⟩
  · exact hr.eventually (fun _ _ => State.PushnWaits.accepted_or_closer (n := n)) ⟨hown, hheld, hfits⟩

end Sys2Proof.Machine
end

section
/-!
PROOFS. What the environment's lookups find, in the words of the statements of the family 43_client_sequences.md: the
present slots, the block of a figure image, the backing files. The round trip of ReadBlock and WriteBlock rests on these
alone.
-/

namespace Sys2Proof.Machine

/-! ## The slots -/

/-- A scan of the slots finds the lowest index that it looks for (43_client_sequences.md R226, R228). -/
theorem find_slotIndices_eq_some_iff {q : Fin 8 → Bool} {i : Fin 8} :
    slotIndices.find? q = some i ↔ q i = true ∧ ∀ j < i, q j = false := by
  have hscan : slotIndices = List.finRange 8 := by decide
  rw [hscan, List.find?_eq_some_iff_getElem]
  refine and_congr_right fun _ => ⟨?_, fun h => ?_⟩
  · rintro ⟨k, hk, rfl, hlower⟩ j hj
    have hjk : j.val < k := by simpa [Fin.lt_def] using hj
    simpa using hlower j hjk
  · exact ⟨i, by simp, by simp, fun j hj => by simpa using h ⟨j, by omega⟩ hj⟩

/-- A scan finds nothing when no slot is what it looks for. -/
theorem find_slotIndices_eq_none_iff {q : Fin 8 → Bool} : slotIndices.find? q = none ↔ ∀ i, q i = false := by
  simp [List.find?_eq_none, mem_slotIndices]

theorem State.mem_presentSlots {s : State} {i : Fin 8} :
    i ∈ s.presentSlots ↔ s.env.occupied s.params i = true := by
  simp [← filter_occupied, mem_slotIndices]

/-- FindByUid finds the lowest present slot with the uid (R228, log entry 26). -/
theorem State.findByUid_eq_some_iff {s : State} {uid : Uid} {i : Fin 8} :
    s.env.findByUid s.params uid = some i ↔ i ∈ s.presentSlots ∧ s.env.slots[i].uid = uid ∧
      ∀ j ∈ s.presentSlots, s.env.slots[j].uid = uid → i ≤ j := by
  simp only [Env.findByUid, find_slotIndices_eq_some_iff, Bool.and_eq_true, decide_eq_true_eq, Bool.and_eq_false_iff,
    decide_eq_false_iff_not, State.mem_presentSlots, and_assoc]
  refine and_congr_right fun _ => and_congr_right fun _ => forall_congr' fun j => ?_
  rw [← not_lt, ← Bool.not_eq_true]
  tauto

theorem State.findByUid_eq_none_iff {s : State} {uid : Uid} :
    s.env.findByUid s.params uid = none ↔ ∀ i ∈ s.presentSlots, s.env.slots[i].uid ≠ uid := by
  simp only [Env.findByUid, find_slotIndices_eq_none_iff, Bool.and_eq_false_imp, decide_eq_false_iff_not,
    State.mem_presentSlots, ne_eq]

theorem State.ownsHandle_iff {s : State} {handle : Nat} :
    s.env.ownsHandle s.params handle = true ↔ ∃ i ∈ s.presentSlots, s.env.slots[i].handle = some handle := by
  simp [Env.ownsHandle, mem_slotIndices, State.mem_presentSlots]

theorem State.ownsHandle_eq_false_iff {s : State} {handle : Nat} :
    s.env.ownsHandle s.params handle = false ↔ ∀ i ∈ s.presentSlots, s.env.slots[i].handle ≠ some handle := by
  rw [← Bool.not_eq_true, State.ownsHandle_iff]
  push Not
  rfl

/-- Allocate's scan takes the lowest slot that is free (R226). -/
theorem Env.freeSlot_eq_some {e : Env} {p : Params} {i : Fin 8} (hslot : i.val < p.numSlots)
    (hfree : e.slots[i].present = false) (hlower : ∀ j : Fin 8, j < i → e.slots[j].present = true) :
    e.freeSlot p = some i :=
  find_slotIndices_eq_some_iff.2
    ⟨by rw [hfree, (slotExists_iff p i).2 hslot]; rfl, fun j hj => by rw [hlower j hj]; rfl⟩

/-- In a full registry it takes none. -/
theorem Env.freeSlot_eq_none {e : Env} {p : Params}
    (hfull : ∀ j : Fin 8, j.val < p.numSlots → e.slots[j].present = true) : e.freeSlot p = none := by
  refine find_slotIndices_eq_none_iff.2 fun j => ?_
  by_cases hj : slotExists p j = true
  · rw [hfull j ((slotExists_iff p j).1 hj)]
    rfl
  · simp [hj]

/-! ## The blocks of an image -/

/-- A slice that lies within the bytes is a part of them (30_encoding.md R115). -/
theorem sliceBytes_toList {l : List Byte} {start len : Nat} (h : start + len ≤ l.length) :
    (sliceBytes l start len).toList = (l.drop start).take len := by
  rw [sliceBytes, packBytes_toList, List.take_append_of_le_length (by rw [List.length_drop]; omega)]

/-- The uid of a figure is the first seven bytes of its blob (43_client_sequences.md R226). -/
theorem uidOf_toList (blob : Image) : (uidOf blob).toList = blob.toList.take 7 :=
  sliceBytes_toList (by simp)

theorem eq_uidOf_iff {blob : Image} {uid : Uid} : uid = uidOf blob ↔ uid.toList = blob.toList.take 7 := by
  rw [← uidOf_toList, Vector.toList_inj]

theorem blockInRange_iff {sector block : Byte} :
    blockInRange sector block = true ↔ sector.toNat < 5 ∧ block.toNat < 4 := by
  simp [blockInRange]

/-- A block in range lies within the image (20_memory.md R75). -/
theorem blockOffset_le {sector block : Byte} (h : blockInRange sector block = true) :
    blockOffset sector block + 16 ≤ 320 := by
  obtain ⟨hsector, hblock⟩ := blockInRange_iff.1 h
  rw [blockOffset]
  omega

/-- An image with one block replaced, part by part (43_client_sequences.md R230). -/
theorem putBlock_toList (img : Image) {start : Nat} (b : Block) (h : start + 16 ≤ 320) :
    (putBlock img start b).toList = img.toList.take start ++ b.toList ++ img.toList.drop (start + 16) := by
  have hsplice : spliceBytes img.toList start b.toList =
      img.toList.take start ++ b.toList ++ img.toList.drop (start + 16) := by
    rw [spliceBytes, b.length_toList]
  rw [putBlock, hsplice, packBytes_toList_of_length]
  simp only [List.length_append, List.length_take, List.length_drop, Vector.length_toList]
  omega

/-- The block that was put is read back. -/
theorem putBlock_block (img : Image) {start : Nat} (b : Block) (h : start + 16 ≤ 320) :
    ((putBlock img start b).toList.drop start).take 16 = b.toList := by
  have hstart : (img.toList.take start).length = start := by
    rw [List.length_take, Vector.length_toList]
    omega
  rw [putBlock_toList img b h, List.append_assoc, List.drop_left' hstart, List.take_left' b.length_toList]

/-- Each byte of an image with one block replaced. -/
theorem putBlock_getElem (img : Image) {start : Nat} (b : Block) (h : start + 16 ≤ 320) (k : Nat) (hk : k < 320) :
    (putBlock img start b)[k] =
      if start ≤ k ∧ k < start + 16 then b.toList.getD (k - start) 0 else img[k] := by
  have hstart : min start 320 = start := by omega
  rw [← Vector.getElem_toList (by simpa using hk)]
  simp only [putBlock_toList img b h, List.getElem_append, List.length_append, List.length_take, Vector.length_toList,
    hstart, List.getElem_take, List.getElem_drop, Vector.getElem_toList]
  by_cases hbefore : k < start
  · rw [dif_pos (by omega), dif_pos hbefore, if_neg (by omega)]
  · by_cases hinside : k < start + 16
    · rw [dif_pos hinside, dif_neg hbefore, if_pos (by omega), List.getD_eq_getElem _ _ (by simp; omega),
        Vector.getElem_toList]
    · rw [dif_neg hinside, if_neg (by omega)]
      congr 1
      omega

/-! ## The backing files -/

/-- Writing one backing file leaves the others (43_client_sequences.md R227). -/
theorem getFile_putFile_of_ne {handle handle' : Nat} (img : Image) (files : List (Nat × Image))
    (h : handle' ≠ handle) : getFile handle' (putFile handle img files) = getFile handle' files := by
  induction files with
  | nil => simp [putFile, getFile, h.symm]
  | cons c rest ih =>
    obtain ⟨hd, tl⟩ := c
    unfold putFile
    split
    · simp [getFile, h.symm]
    · split
      · rename_i heq
        simp [getFile, ← heq, h.symm]
      · simp only [getFile, List.find?_cons] at ih ⊢
        split
        · rfl
        · exact ih

/-! ## ReadBlock and WriteBlock -/

/-- ReadBlock of a uid that is found gives the addressed bytes (43_client_sequences.md R229). -/
theorem Env.readBlock_of_hit {e : Env} {p : Params} {uid : Uid} {sector block : Byte} {i : Fin 8}
    (hfind : e.findByUid p uid = some i) (hrange : blockInRange sector block = true) :
    e.readBlock p uid sector block = some (sliceBytes e.slots[i].data.toList (blockOffset sector block) 16) := by
  simp [Env.readBlock, hfind, hrange]

/-- A uid that is not found and a block out of range are unavailable (R229). -/
theorem Env.readBlock_of_miss {e : Env} {p : Params} {uid : Uid} {sector block : Byte}
    (h : e.findByUid p uid = none ∨ blockInRange sector block = false) : e.readBlock p uid sector block = none := by
  unfold Env.readBlock
  split
  · rfl
  · rename_i i hfind
    rw [if_neg (by simpa [hfind] using h)]

/-- The conditions under which the statements speak of a miss. -/
theorem State.miss_of_conditions {s : State} {uid : Uid} {sector block : Byte}
    (h : (∀ i ∈ s.presentSlots, s.env.slots[i].uid ≠ uid) ∨ 5 ≤ sector.toNat ∨ 4 ≤ block.toNat) :
    s.env.findByUid s.params uid = none ∨ blockInRange sector block = false := by
  refine h.imp State.findByUid_eq_none_iff.2 fun hout => ?_
  rw [← Bool.not_eq_true, blockInRange_iff]
  omega

/-- WriteBlock of a uid that is found writes the addressed block of that slot; only a write to block (0, 0) can change
the slot's uid (R230, log entry 12). -/
theorem State.writeBlock_of_hit {s : State} {uid : Uid} {sector block : Byte} {i : Fin 8} (payload : Block)
    (hfind : s.env.findByUid s.params uid = some i) (hrange : blockInRange sector block = true) :
    ∃ uid' k, (touchesUid sector block = false → uid' = uid ∧ k = s.drawn) ∧
      s.writeBlock uid sector block payload =
        { s with
          env := s.env.setSlot i
            { s.env.slots[i] with
              data := putBlock s.env.slots[i].data (blockOffset sector block) payload
              uid := uid' }
          drawn := k } := by
  obtain ⟨-, -, huid⟩ := Env.findByUid_some hfind
  rcases s.writeBlock_cases uid sector block payload with ⟨hmiss, -⟩ | ⟨j, hfind', -, uid', k, hkeeps, -, e⟩
  · simp [hfind, hrange] at hmiss
  · cases hfind.symm.trans hfind'
    exact ⟨uid', k, fun h => ⟨(hkeeps h).1.trans huid, (hkeeps h).2⟩, e⟩

/-- Otherwise it is dropped (R230). -/
theorem State.writeBlock_of_miss {s : State} {uid : Uid} {sector block : Byte} (payload : Block)
    (h : s.env.findByUid s.params uid = none ∨ blockInRange sector block = false) :
    s.writeBlock uid sector block payload = s := by
  rcases s.writeBlock_cases uid sector block payload with ⟨-, e⟩ | ⟨i, hfind, hrange, -⟩
  · exact e
  · simp [hfind, hrange] at h

/-- WriteBlock touches the slots and the draw counter alone. -/
theorem State.writeBlock_frame (s : State) (uid : Uid) (sector block : Byte) (payload : Block) :
    s.writeBlock uid sector block payload =
      { s with
        env := { s.env with slots := (s.writeBlock uid sector block payload).env.slots }
        drawn := (s.writeBlock uid sector block payload).drawn } := by
  rcases s.writeBlock_cases uid sector block payload with ⟨-, e⟩ | ⟨i, -, -, uid', k, -, -, e⟩
  · rw [e]
  · rw [e]
    rfl

@[simp] theorem State.writeBlock_params (s : State) (uid : Uid) (sector block : Byte) (payload : Block) :
    (s.writeBlock uid sector block payload).params = s.params := by
  rw [s.writeBlock_frame]

@[simp] theorem State.writeBlock_u3 (s : State) (uid : Uid) (sector block : Byte) (payload : Block) :
    (s.writeBlock uid sector block payload).u3 = s.u3 := by
  rw [s.writeBlock_frame]

/-- Block (0, 0) is the only one that holds the uid. -/
theorem touchesUid_eq_false {sector block : Byte} (h : sector ≠ 0 ∨ block ≠ 0) : touchesUid sector block = false := by
  simpa [touchesUid, imp_iff_not_or] using h

/-- A slot that keeps its presence and its uid does not change what a search finds (R228). -/
theorem Env.findByUid_setSlot {e : Env} {i : Fin 8} {sl : Slot} (p : Params) (uid : Uid)
    (hpresent : sl.present = e.slots[i].present) (huid : sl.uid = e.slots[i].uid) :
    (e.setSlot i sl).findByUid p uid = e.findByUid p uid := by
  unfold Env.findByUid
  congr 1
  funext j
  simp only [Env.occupied, Env.setSlot_slots, getElem_set_slot]
  split
  · rename_i hj
    rw [hpresent, huid, hj]
  · rfl

/-- Settles O49: the write leaves what the search finds, and the block written is the block read. -/
theorem readAfterWriteGivesThePayload : Obligations.ReadAfterWriteGivesThePayload := by
  intro s uid sector block payload hpresent hsector hblock hother
  obtain ⟨i, hfind⟩ : ∃ i, s.env.findByUid s.params uid = some i := by
    rw [← Option.ne_none_iff_exists', Ne, State.findByUid_eq_none_iff]
    simpa using hpresent
  have hrange := blockInRange_iff.2 ⟨hsector, hblock⟩
  have hle := blockOffset_le hrange
  obtain ⟨-, -, huid⟩ := Env.findByUid_some hfind
  obtain ⟨uid', k, hkeeps, hwrite⟩ := State.writeBlock_of_hit payload hfind hrange
  obtain ⟨rfl, -⟩ := hkeeps (touchesUid_eq_false hother)
  have hfind' : (s.writeBlock uid' sector block payload).env.findByUid s.params uid' = some i := by
    rw [hwrite, ← hfind]
    exact Env.findByUid_setSlot _ _ rfl huid.symm
  rw [Env.readBlock_of_hit hfind' hrange, hwrite]
  refine congrArg some (Vector.toList_inj.1 ?_)
  simp only [Env.setSlot_slots, getElem_set_slot, if_true]
  rw [sliceBytes_toList (by simpa using hle), putBlock_block _ _ hle]

end Sys2Proof.Machine
end

section
/-!
PROOFS. The statements of the family 43_client_sequences.md about the Command Processor. Every command that signs ends in
`State.signAndReply`, whose outcome on a reply queue with room is said once (`clientSequence_completes`); the statement
about each command says which bytes it signs.
-/

namespace Sys2Proof.Machine

/-! ## The step -/

/-- The Writer's turn with a Command Frame next and nobody inside the exclusive region (43_client_sequences.md R211). -/
theorem writerTurn_of_hostWrite {s : State} {cmd : Frame} {rest : List WriterJob} (hheld : s.portW.held = none)
    (hscript : s.portW.script = .hostWrite cmd :: rest) (hregion : s.env.region = .free) :
    writerTurn s = exec (decodeCommand cmd.toList) { s with portW := { s.portW with script := rest } } := by
  simp only [writerTurn, hheld, hscript, if_pos hregion]

/-- While somebody is inside the region the Command Frame waits (60_exceptions.md R266 duty 3). -/
theorem writerTurn_of_hostWrite_waits {s : State} {cmd : Frame} {rest : List WriterJob}
    (hheld : s.portW.held = none) (hscript : s.portW.script = .hostWrite cmd :: rest)
    (hregion : s.env.region ≠ .free) : writerTurn s = .next s := by
  simp only [writerTurn, hheld, hscript, if_neg hregion]

/-- The Reader's turn with a host Read of a whole frame next is one POLL (43_client_sequences.md R220). -/
theorem readerTurn_of_hostRead {s : State} {rest : List ReaderJob} (hidle : s.u3.pstate = .idle)
    (hheld : s.portR.held = none) (hscript : s.portR.script = .hostRead 64 :: rest) :
    readerTurn s = exec (.poll 0) { s with portR := { s.portR with script := rest } } := by
  simp only [readerTurn, hidle, hheld, hscript]
  exact if_pos rfl

/-- Settles O7: the Writer's turn decodes the Command Frame or waits, and the Reader's turn polls. -/
theorem stepRunsDecodedCommand : Obligations.StepRunsDecodedCommand := by
  refine fun s ts => ⟨fun cmd rest hsched hheld hscript => ⟨fun i hregion hdec => ?_, fun hregion => ?_⟩,
    fun rest hsched hidle hheld hscript => ?_⟩
  · have hi : decodeCommand cmd.toList = i := by simpa [decodeBytes] using hdec
    rw [← hi]
    exact (step_of_schedule_cons hsched).trans (writerTurn_of_hostWrite hheld hscript hregion)
  · exact (step_of_schedule_cons hsched).trans (writerTurn_of_hostWrite_waits hheld hscript hregion)
  · exact (step_of_schedule_cons hsched).trans (readerTurn_of_hostRead hidle hheld hscript)

/-! ## Signing and replying -/

/-- U2 after a client's CSIGN of a frame that holds only its used bytes (41_checksum.md R168, 30_encoding.md R117). -/
theorem State.clientSign_used (s : State) {used : List Byte} (h : used.length ≤ 63) :
    (s.clientSign (packBytes 64 used) used.length).u2 =
      { sum := BitVec.ofNat 8 (byteSum used), sidx := BitVec.ofNat 7 used.length, slen := BitVec.ofNat 7 used.length
        frm := signFrame (packBytes 64 used) used.length, busy := s.u2.busy } := by
  have hn : (BitVec.ofNat 7 used.length).toNat = used.length := Nat.mod_eq_of_lt (by omega)
  have hsum : additiveChecksum (packBytes 64 used) used.length = BitVec.ofNat 8 (byteSum used) := by
    rw [additiveChecksum_eq, packBytes_toList_of_le (by omega), List.take_left' rfl]
  simp [U2.csign, U2.csum, hn, hsum]

/-- A command's reply into a queue with room is appended and answered (43_client_sequences.md R211). -/
theorem State.reply_of_fits {s : State} (f : Frame) (h : s.params.rqDepth.fits (s.u3.rq.length + 1) = true) :
    s.reply f = ({ s with u3 := s.u3.pushR f } : State).complete .w (.ok .none) := by
  rcases s.reply_cases f with ⟨-, e⟩ | ⟨hfull, -⟩
  · exact e
  · rw [hasRoom_iff, h] at hfull
    cases hfull

/-- A command's reply into a full queue holds, with the Writer inside the exclusive region (log entries 8 and 15). -/
theorem State.reply_of_full {s : State} (f : Frame) (h : s.params.rqDepth.fits (s.u3.rq.length + 1) = false) :
    s.reply f = { s.hold .w (.pushr 0 f) with env := { s.env with region := .writer } } := by
  rcases s.reply_cases f with ⟨hroom, -⟩ | ⟨-, e⟩
  · rw [hasRoom_iff, h] at hroom
    cases hroom
  · exact e

/-- A client sequence that signs these bytes, with U2 and port C free and room for the reply: the signed frame is appended
to the reply queue and nothing else of the state `u` before its CSIGN changes (R211, 30_encoding.md R105, R117). -/
theorem clientSequence_completes {i : Instr} {s u : State} {used : List Byte} {f : Frame} {n : Nat}
    (hbusy : s.u2.busy = false) (hportC : s.portC.held = none)
    (hfits : u.params.rqDepth.fits (u.u3.rq.length + 1) = true)
    (hf : f = packBytes 64 used) (hn : n = used.length) (hlen : used.length ≤ 63) :
    ∃ t, clientSequence i s (.next (u.signAndReply f n)) = .next t ∧ SignedReply u t used ∧
      t = { u with
        u2 := t.u2
        u3 := { u.u3 with rq := t.u3.rq }
        portC := t.portC
        portW := { u.portW with held := none, out := u.portW.out ++ [.ok .none] } } := by
  subst hf hn
  have hreply : u.signAndReply (packBytes 64 used) used.length = _ :=
    State.reply_of_fits (s := u.clientSign (packBytes 64 used) used.length) _ hfits
  refine ⟨_, if_pos ((State.u2Free_iff s).2 ⟨hbusy, hportC⟩), ?_⟩
  rw [hreply]
  exact ⟨⟨_, signFrame_packBytes used hlen, u.clientSign_used hlen, rfl, rfl⟩, rfl⟩

/-! ## The commands -/

/-- The Wake response's used bytes end where its checksum stands (30_encoding.md R108). -/
theorem wakeFrame_used_length (p : Params) (seq : Byte) :
    checksumOffset p.wakeLen = (responseHead p p.wakeLen 0xB0 seq ++ p.wakeBytes).length := by
  simp only [checksumOffset, Params.wakeLen, responseHead, List.length_append, List.length_cons, List.length_nil]
  omega

/-- Settles O41: WAKE, then the signed handshake frame. -/
theorem cmdWakeCompletes : Obligations.CmdWakeCompletes := by
  intro seq s hbusy hportC hfits
  have hused := wakeFrame_used_length s.params seq
  obtain ⟨t, hexec, hsigned, ht⟩ := clientSequence_completes (i := .cmdWake seq) (u := s.clientWake) hbusy hportC hfits
    rfl hused (hused ▸ wake_offset_le s.params)
  refine ⟨t, hexec, hsigned, ht.trans ?_⟩
  simp [State.clientWake, U3.wakeUp]

/-- Settles O42: both codes sign the acknowledgement that echoes them. -/
theorem cmdAckCompletes : Obligations.CmdAckCompletes := by
  intro seq s hbusy hportC hfits
  exact ⟨clientSequence_completes (i := .cmdAckC0 seq) hbusy hportC hfits rfl rfl (by simp),
    clientSequence_completes (i := .cmdAckC3 seq) hbusy hportC hfits rfl rfl (by simp)⟩

/-- The bytes that CMD.LIST signs: the header, zero bytes, the entries in slot-index order (30_encoding.md R116). -/
def listUsed (p : Params) (seq : Byte) (uids : List Uid) : List Byte :=
  responseHead p (listLen p uids.length) 0xD0 seq ++ List.replicate (p.listBaseLen - 2) 0 ++ uids.flatMap listEntry

/-- They end where the checksum stands (30_encoding.md R116, R117). -/
theorem listUsed_length (p : Params) (seq : Byte) (uids : List Uid) :
    checksumOffset (listLen p uids.length) = (listUsed p seq uids).length := by
  have hentries : (uids.flatMap listEntry).length = 8 * uids.length := by
    simp [List.length_flatMap, listEntry, Nat.mul_comm]
  simp only [checksumOffset, listLen, listUsed, responseHead, Params.listBaseLen, List.length_append,
    List.length_replicate, hentries, List.length_cons, List.length_nil]
  omega

/-- Settles O43: the list of the present slots' uids is signed. -/
theorem cmdListCompletes : Obligations.CmdListCompletes := by
  intro seq s hbusy hportC hfits hlist
  have hfitsFrame := (listFits_iff s).2 hlist
  have hused := listUsed_length s.params seq (s.env.presentUids s.params)
  obtain ⟨t, hexec, hsigned, ht⟩ := clientSequence_completes (i := .cmdList seq) hbusy hportC hfits
    (f := listFrame s.params seq (s.env.presentUids s.params)) rfl hused (hused ▸ of_decide_eq_true hfitsFrame)
  refine ⟨t, (if_pos hfitsFrame).trans hexec, ?_, ht⟩
  simpa [listUsed, Env.presentUids, filter_occupied, List.flatMap_map, responseHead, listLen, listEntry]
    using hsigned

/-- Settles O44: such a list does not fit. -/
theorem listTagsThatDoesNotFitIsRefused : Obligations.ListTagsThatDoesNotFitIsRefused :=
  fun _ s hlong => if_neg fun hfits => absurd ((listFits_iff s).1 hfits) (by omega)

/-- The 16 bytes of a Read Block response: the block, or zero bytes on a miss (R215). -/
def readBytes (hit : Option Block) : List Byte := (hit.map Vector.toList).getD (List.replicate 16 0)

theorem readBytes_length (hit : Option Block) : (readBytes hit).length = 16 := by
  cases hit <;> simp [readBytes]

/-- The Read Block response holds its used bytes; on a miss its zero bytes are those every frame starts with (30_encoding.md
R109). -/
theorem readFrame_eq (p : Params) (seq : Byte) (hit : Option Block) :
    readFrame p seq hit = packBytes 64 (responseHead p 0x13 0xD2 seq ++ [0] ++ readBytes hit) := by
  cases hit with
  | some b => rfl
  | none => rfl

/-- Settles O45: the block that ReadBlock gives, or zero bytes, is signed. -/
theorem cmdReadCompletes : Obligations.CmdReadCompletes := by
  intro seq uid sector block s hbusy hportC hfits
  have hused : checksumOffset 0x13 = (responseHead s.params 0x13 0xD2 seq ++ [0] ++
      readBytes (s.env.readBlock s.params uid sector block)).length := by
    simp [checksumOffset, responseHead, readBytes_length]
  obtain ⟨t, hexec, hsigned, ht⟩ := clientSequence_completes (i := .cmdRead seq uid sector block) hbusy hportC hfits
    (readFrame_eq s.params seq _) hused (hused ▸ by decide)
  refine ⟨t, hexec, fun i hi huid hlowest hsector hblock => ?_, fun hmiss => ?_, ht⟩
  · have hrange := blockInRange_iff.2 ⟨hsector, hblock⟩
    rw [Env.readBlock_of_hit (State.findByUid_eq_some_iff.2 ⟨hi, huid, hlowest⟩) hrange] at hsigned
    have hblockBytes : (sliceBytes s.env.slots[i].data.toList (blockOffset sector block) 16).toList =
        (s.env.slots[i].data.toList.drop (blockOffset sector block)).take 16 :=
      sliceBytes_toList (by rw [Vector.length_toList]; exact blockOffset_le hrange)
    exact hblockBytes ▸ hsigned
  · rw [Env.readBlock_of_miss (State.miss_of_conditions hmiss)] at hsigned
    exact hsigned

/-- What a Write Block does to the registry on a hit, in the words of CmdWriteCompletes (R230). -/
theorem State.writeBlock_registry {s : State} {uid : Uid} {sector block : Byte} {i : Fin 8} (payload : Block)
    (hfind : s.env.findByUid s.params uid = some i) (hrange : blockInRange sector block = true) :
    let w := s.writeBlock uid sector block payload
    (∀ j : Fin 8, j ≠ i → w.env.slots[j] = s.env.slots[j]) ∧
      (∀ (k : Nat) (h : k < 320), w.env.slots[i].data[k] =
        if blockOffset sector block ≤ k ∧ k < blockOffset sector block + 16 then
          payload.toList.getD (k - blockOffset sector block) 0
        else s.env.slots[i].data[k]) ∧
      w.env.slots[i].present = true ∧ w.env.slots[i].handle = s.env.slots[i].handle ∧
      (sector ≠ 0 ∨ block ≠ 0 → w.env.slots[i].uid = uid ∧ w.drawn = s.drawn) := by
  obtain ⟨hpresent, -, -⟩ := Env.findByUid_some hfind
  obtain ⟨uid', k, hkeeps, hwrite⟩ := State.writeBlock_of_hit payload hfind hrange
  have hslots (j : Fin 8) := congrArg (fun t : State => t.env.slots[j]) hwrite
  simp only [Env.setSlot_slots, getElem_set_slot] at hslots
  have hi := (hslots i).trans (if_pos rfl)
  refine ⟨fun j hj => (hslots j).trans (if_neg hj), fun k hk => ?_, ?_, ?_, fun hother => ⟨?_, ?_⟩⟩
  · rw [hi]
    exact putBlock_getElem _ _ (blockOffset_le hrange) k hk
  · rw [hi]
    exact hpresent
  · rw [hi]
  · rw [hi]
    exact (hkeeps (touchesUid_eq_false hother)).1
  · rw [hwrite]
    exact (hkeeps (touchesUid_eq_false hother)).2

/-- Settles O46: WriteBlock, then the signed acknowledgement. -/
theorem cmdWriteCompletes : Obligations.CmdWriteCompletes := by
  intro seq uid sector block payload s hbusy hportC hfits
  have hframe := s.writeBlock_frame uid sector block payload
  obtain ⟨t, hexec, hsigned, ht⟩ := clientSequence_completes (i := .cmdWrite seq uid sector block payload) hbusy hportC
    (u := s.writeBlock uid sector block payload) (by simpa using hfits) (f := ackFrame s.params 0xD3 seq)
    (used := [s.params.respMarker, 2, 0xD3, seq]) rfl rfl (by simp)
  have henv : t.env = (s.writeBlock uid sector block payload).env := by rw [ht]
  have hdrawn : t.drawn = (s.writeBlock uid sector block payload).drawn := by rw [ht]
  refine ⟨t, hexec, ?_, fun i hi huid hlowest hsector hblock => ?_, fun hmiss => ?_, ?_⟩
  · rw [hframe] at hsigned
    exact hsigned
  · rw [henv, hdrawn]
    exact State.writeBlock_registry payload (State.findByUid_eq_some_iff.2 ⟨hi, huid, hlowest⟩)
      (blockInRange_iff.2 ⟨hsector, hblock⟩)
  · rw [henv, hdrawn, State.writeBlock_of_miss payload (State.miss_of_conditions hmiss)]
    exact ⟨rfl, rfl⟩
  · rw [henv, hdrawn]
    rw [hframe] at ht
    exact ht

/-- Settles O47: the all-zero frame is pushed, and no branch depends on U2 or the code. -/
theorem cmdUnknownCompletes : Obligations.CmdUnknownCompletes :=
  fun _ _ hfits => congrArg Host.Outcome.next (State.reply_of_fits unknownFrame hfits)

end Sys2Proof.Machine
end

section
/-!
PROOFS. The statement OneCommandOneReply of the family 43_client_sequences.md. What a command does before its PUSHR does
not depend on the reply queue (`EndsInReply`), so the PUSHR that holds on a full queue is the one that an empty queue
accepts.
-/

namespace Sys2Proof.Machine

/-- The state with another reply queue. -/
def State.withReplies (s : State) (q : List Frame) : State := { s with u3 := { s.u3 with rq := q } }

theorem State.withReplies_self (s : State) : s.withReplies s.u3.rq = s := rfl

/-- WriteBlock does not look at the reply queue. -/
theorem State.writeBlock_withReplies (s : State) (q : List Frame) (uid : Uid) (sector block : Byte) (payload : Block) :
    (s.withReplies q).writeBlock uid sector block payload = (s.writeBlock uid sector block payload).withReplies q := by
  unfold State.writeBlock
  dsimp only [State.withReplies]
  repeat' split
  all_goals rfl

/-- Whatever the reply queue, the command `i` leaves the state `u` when it comes to its one PUSHR, that of the frame `g`
(43_client_sequences.md R211). -/
structure EndsInReply (i : Instr) (s u : State) (g : Frame) : Prop where
  run : ∀ q, exec i (s.withReplies q) = .next ((u.withReplies q).reply g)
  params : u.params = s.params
  rq : u.u3.rq = s.u3.rq
  nq : u.u3.nq = s.u3.nq
  pstate : u.u3.pstate = s.u3.pstate
  wakes : ∀ seq, i = .cmdWake seq → u.u3.awake = true
  writes : ∀ seq uid sector block payload, i = .cmdWrite seq uid sector block payload →
    u.env.slots = (s.writeBlock uid sector block payload).env.slots

/-- A client sequence whose CSIGN can be taken comes to its PUSHR, whatever the reply queue. -/
theorem clientSequence_withReplies {i : Instr} {s : State} (u : State) (f : Frame) (n : Nat) (hfree : s.u2Free = true)
    (q : List Frame) : clientSequence i (s.withReplies q) (.next ((u.withReplies q).signAndReply f n)) =
      .next (((u.clientSign f n).withReplies q).reply (signFrame f n)) :=
  if_pos hfree

/-- Every command that starts ends in one PUSHR (R211); CMD.LIST starts only when its response fits a frame (R222). -/
theorem exec_endsInReply {i : Instr} {s t : State} (hwire : i.wire = .command) (hfree : s.u2Free = true)
    (hexec : exec i s = .next t) : ∃ u g, EndsInReply i s u g := by
  cases i with
  | cmdWake seq =>
    exact ⟨_, _, clientSequence_withReplies s.clientWake (wakeFrame s.params seq) (checksumOffset s.params.wakeLen) hfree,
      rfl, rfl, rfl, rfl, fun _ _ => rfl, nofun⟩
  | cmdAckC0 seq =>
    exact ⟨_, _, clientSequence_withReplies s (ackFrame s.params 0xC0 seq) (checksumOffset 2) hfree, rfl, rfl, rfl, rfl,
      nofun, nofun⟩
  | cmdAckC3 seq =>
    exact ⟨_, _, clientSequence_withReplies s (ackFrame s.params 0xC3 seq) (checksumOffset 2) hfree, rfl, rfl, rfl, rfl,
      nofun, nofun⟩
  | cmdRead seq uid sector block =>
    exact ⟨_, _, clientSequence_withReplies s (readFrame s.params seq (s.env.readBlock s.params uid sector block))
      (checksumOffset 0x13) hfree, rfl, rfl, rfl, rfl, nofun, nofun⟩
  | cmdList seq =>
    have hfits : listFits s.params (s.env.presentUids s.params) = true := by
      by_contra hlong
      cases (if_neg hlong).symm.trans hexec
    exact ⟨_, _, fun q => (if_pos hfits).trans (clientSequence_withReplies s
      (listFrame s.params seq (s.env.presentUids s.params))
      (checksumOffset (listLen s.params (s.env.presentUids s.params).length)) hfree q), rfl, rfl, rfl, rfl, nofun, nofun⟩
  | cmdWrite seq uid sector block payload =>
    have hu3 := s.writeBlock_u3 uid sector block payload
    refine ⟨(s.writeBlock uid sector block payload).clientSign (ackFrame s.params 0xD3 seq) (checksumOffset 2),
      signFrame (ackFrame s.params 0xD3 seq) (checksumOffset 2), fun q => ?_,
      s.writeBlock_params uid sector block payload, congrArg U3.rq hu3, congrArg U3.nq hu3, congrArg U3.pstate hu3,
      nofun, ?_⟩
    · refine Eq.trans ?_ (clientSequence_withReplies (i := .cmdWrite seq uid sector block payload)
        (s.writeBlock uid sector block payload) (ackFrame s.params 0xD3 seq) (checksumOffset 2) hfree q)
      rw [← State.writeBlock_withReplies]
      rfl
    · rintro _ _ _ _ _ ⟨⟩
      rfl
  | cmdUnknown code => exact ⟨s, unknownFrame, fun q => rfl, rfl, rfl, rfl, rfl, nofun, nofun⟩
  | crc32f | crcsign | csum | csign | pushr | pushn | wake | poll => cases hwire

/-- The command's outcome is that of its PUSHR. -/
theorem EndsInReply.exec_eq {i : Instr} {s u : State} {g : Frame} (h : EndsInReply i s u g) :
    exec i s = .next (u.reply g) := by
  have hrun := h.run s.u3.rq
  rwa [s.withReplies_self, ← h.rq, u.withReplies_self] at hrun

/-- An empty queue has room. -/
theorem fits_one (d : Depth) : d.fits 1 = true := by
  cases d <;> simp [Depth.fits]

/-- On an empty reply queue the PUSHR is accepted (42_mux.md R181). -/
theorem State.reply_withReplies_nil (u : State) (g : Frame) :
    (u.withReplies []).reply g = ({ u.withReplies [] with u3 := { u.u3 with rq := [g] } } : State).complete .w
      (.ok .none) :=
  State.reply_of_fits (s := u.withReplies []) g (fits_one _)

/-- Settles O48: the one PUSHR is appended when there is room, and holds with its operand when there is none. -/
theorem oneCommandOneReply : Obligations.OneCommandOneReply := by
  intro i s t hwire hbusy hportC hexec
  obtain ⟨u, g, h⟩ := exec_endsInReply hwire ((State.u2Free_iff s).2 ⟨hbusy, hportC⟩) hexec
  cases h.exec_eq.symm.trans hexec
  have hsame : s.params.rqDepth.fits (s.u3.rq.length + 1) = u.params.rqDepth.fits (u.u3.rq.length + 1) := by
    rw [h.params, h.rq]
  rw [hsame, ← h.rq]
  cases hfits : u.params.rqDepth.fits (u.u3.rq.length + 1) with
  | true =>
    rw [State.reply_of_fits g hfits]
    exact ⟨h.nq, h.pstate, fun _ => ⟨rfl, g, rfl⟩, nofun⟩
  | false =>
    rw [State.reply_of_full g hfits]
    refine ⟨h.nq, h.pstate, nofun, fun _ => ⟨⟨_, g, h.run [], ?_⟩, fun ⟨seq, hi⟩ => h.wakes seq hi, h.writes⟩⟩
    rw [State.reply_withReplies_nil]
    refine ⟨rfl, rfl, ?_⟩
    simp [State.hold, Port.hold, State.withReplies, State.complete, Port.complete]

end Sys2Proof.Machine
end

section
/-!
PROOFS. The statements of the family 43_client_sequences.md about attach, detach and figure creation. The notification
that ends an attach or a detach is said once (`Notified`, `State.notify_notified`).
-/

namespace Sys2Proof.Machine

/-! ## The notification -/

/-- When a notification is due (43_client_sequences.md R218). -/
theorem State.notifies_iff (s : State) :
    s.notifies = true ↔ s.u3.awake = true ∨ s.params.notifyWhenAsleep = true := by
  simp [State.notifies]

/-- An attach or detach can start when no notification is due or U2 and port C can take its CSIGN (log entry 27). -/
theorem State.eventCanStart_iff (s : State) :
    s.eventCanStart = true ↔
      (s.u3.awake = true ∨ s.params.notifyWhenAsleep = true → s.u2.busy = false ∧ s.portC.held = none) := by
  rw [← s.notifies_iff, ← s.u2Free_iff, State.eventCanStart]
  cases s.notifies <;> simp

/-- While a due notification cannot be signed an attach or detach cannot start (log entry 27). -/
theorem State.not_eventCanStart {s : State} (hdue : s.u3.awake = true ∨ s.params.notifyWhenAsleep = true)
    (hbusy : s.u2.busy = true ∨ s.portC.held ≠ none) : ¬ s.eventCanStart = true := by
  intro hstarts
  obtain ⟨hidle, hportC⟩ := s.eventCanStart_iff.1 hstarts hdue
  simp [hidle, hportC] at hbusy

/-- From `s` to `t` an attach or detach, whose entry is taken from the Event agent's script, notified when that was due:
the notification with this presence flag and uid was signed and appended to `nq`, or its PUSHN holds on a full queue with
the Event agent inside the exclusive region as the parameter says (R218, 70_reset_and_hazards.md R295). -/
structure Notified (s t : State) (rest : List EventJob) (flag : Byte) (uid : List Byte) : Prop where
  due : s.u3.awake = true ∨ s.params.notifyWhenAsleep = true →
    (s.params.nqDepth.fits (s.u3.nq.length + 1) = true →
      SignedNotification s t ([s.params.notifMarker, s.params.subtype0, s.params.subtype1, flag] ++ uid) ∧
      t.portE = { script := rest, held := none, out := s.portE.out ++ [.ok .none] } ∧ t.env.region = .free) ∧
    (s.params.nqDepth.fits (s.u3.nq.length + 1) = false →
      HeldNotification s t ([s.params.notifMarker, s.params.subtype0, s.params.subtype1, flag] ++ uid) ∧
      t.portE = { script := rest, held := t.portE.held, out := s.portE.out } ∧
      t.env.region = if s.params.eventKeepsRegion then .event else .free)
  notDue : s.u3.awake = false → s.params.notifyWhenAsleep = false →
    t.u2 = s.u2 ∧ t.u3 = s.u3 ∧ t.portC = s.portC ∧ t.portE = { s.portE with script := rest } ∧ t.env.region = .free

/-- `s` after an attach or detach took its turn and its entry and changed the environment to `e`, before it notifies. -/
def State.eventTaken (s : State) (ts : List Turn) (rest : List EventJob) (e : Env) : State :=
  { s with schedule := ts, portE := { s.portE with script := rest }, env := e }

/-- The bytes that a notification signs: marker, subtype, presence flag, uid (30_encoding.md R107). -/
def notificationUsed (p : Params) (added : Bool) (uid : Uid) : List Byte :=
  [p.notifMarker, p.subtype0, p.subtype1, if added then 1 else 0] ++ uid.toList

/-- They end where the checksum stands (R107, R117). -/
theorem notificationUsed_length (p : Params) (added : Bool) (uid : Uid) :
    (notificationUsed p added uid).length = notificationOffset := by
  simp [notificationUsed, notificationOffset]

/-- U2 and the frame after the CSIGN of a notification (41_checksum.md R168, R107). -/
theorem State.clientSign_notification (s : State) (p : Params) (added : Bool) (uid : Uid) :
    let g := signFrame (notificationFrame p added uid) notificationOffset
    let used := notificationUsed p added uid
    g.toList = signedBytes used ∧
      (s.clientSign (notificationFrame p added uid) notificationOffset).u2 =
        { sum := BitVec.ofNat 8 (byteSum used), sidx := BitVec.ofNat 7 used.length, slen := BitVec.ofNat 7 used.length
          frm := g, busy := s.u2.busy } := by
  have hlen := notificationUsed_length p added uid
  have hle : (notificationUsed p added uid).length ≤ 63 := hlen ▸ notificationOffset_le
  rw [← hlen]
  exact ⟨signFrame_packBytes _ hle, s.clientSign_used hle⟩

/-- A due notification into a queue with room is signed and appended (43_client_sequences.md R218). -/
theorem State.notify_of_fits {s : State} (added : Bool) (uid : Uid) (hdue : s.notifies = true)
    (hfits : s.params.nqDepth.fits (s.u3.nq.length + 1) = true) :
    let t := s.notify added uid
    SignedNotification s t (notificationUsed s.params added uid) ∧
      t = { s with
        u2 := t.u2
        u3 := t.u3
        portC := t.portC
        portE := { s.portE with held := none, out := s.portE.out ++ [.ok .none] } } := by
  obtain ⟨hbytes, hu2⟩ := s.clientSign_notification s.params added uid
  rw [← hasRoom_iff] at hfits
  rcases s.notify_cases added uid with ⟨hnot, -⟩ | ⟨-, u, f, rfl, rfl, ⟨-, heq⟩ | ⟨hfull, -⟩⟩
  · simp [hdue] at hnot
  · rw [heq]
    exact ⟨⟨_, hbytes, hu2, rfl, rfl⟩, rfl⟩
  · simp [hfits] at hfull

/-- On a full queue it is signed and its PUSHN holds (R218, 70_reset_and_hazards.md R295). -/
theorem State.notify_of_full {s : State} (added : Bool) (uid : Uid) (hdue : s.notifies = true)
    (hfull : s.params.nqDepth.fits (s.u3.nq.length + 1) = false) :
    let t := s.notify added uid
    HeldNotification s t (notificationUsed s.params added uid) ∧
      t = { s with
        u2 := t.u2
        portC := t.portC
        portE := { s.portE with held := t.portE.held }
        env := { s.env with region := if s.params.eventKeepsRegion then .event else s.env.region } } := by
  obtain ⟨hbytes, hu2⟩ := s.clientSign_notification s.params added uid
  rw [← hasRoom_iff] at hfull
  rcases s.notify_cases added uid with ⟨hnot, -⟩ | ⟨-, u, f, rfl, rfl, ⟨hroom, -⟩ | ⟨-, heq⟩⟩
  · simp [hdue] at hnot
  · simp [hfull] at hroom
  · rw [heq]
    refine ⟨⟨_, hbytes, hu2, rfl, rfl, rfl⟩, ?_⟩
    cases s.params.eventKeepsRegion <;> rfl

/-- The notification of an attach or detach, and what it leaves alone (43_client_sequences.md R218). -/
theorem State.notify_notified {s : State} (ts : List Turn) {rest : List EventJob} {e : Env} (added : Bool) (uid : Uid)
    (hregion : e.region = .free) :
    ∃ t, (s.eventTaken ts rest e).notify added uid = t ∧ Notified s t rest (if added then 1 else 0) uid.toList ∧
      t = { s with
        u2 := t.u2
        u3 := t.u3
        portC := t.portC
        portE := t.portE
        schedule := ts
        env := { e with region := t.env.region } } := by
  obtain ⟨t, hnotify⟩ : ∃ t, (s.eventTaken ts rest e).notify added uid = t := ⟨_, rfl⟩
  refine ⟨t, hnotify, ?_⟩
  cases hnotifies : s.notifies with
  | false =>
    have ht : t = s.eventTaken ts rest e := hnotify.symm.trans (if_neg (Bool.eq_false_iff.1 hnotifies))
    rw [ht]
    refine ⟨⟨fun hdue => ?_, fun _ _ => ⟨rfl, rfl, rfl, rfl, hregion⟩⟩, rfl⟩
    rw [← s.notifies_iff, hnotifies] at hdue
    cases hdue
  | true =>
    have hnotDue (hasleep : s.u3.awake = false) (hquiet : s.params.notifyWhenAsleep = false) : False := by
      simpa [hasleep, hquiet] using s.notifies_iff.1 hnotifies
    cases hfits : s.params.nqDepth.fits (s.u3.nq.length + 1) with
    | true =>
      obtain ⟨hsigned, ht⟩ := State.notify_of_fits (s := s.eventTaken ts rest e) added uid hnotifies hfits
      rw [hnotify] at hsigned ht
      have hportE : t.portE = _ := congrArg State.portE ht
      have henv : t.env.region = e.region := congrArg (fun v => v.env.region) ht
      refine ⟨⟨fun _ => ⟨fun _ => ⟨hsigned, hportE, henv.trans hregion⟩, by simp [hfits]⟩,
        fun ha hq => (hnotDue ha hq).elim⟩, ?_⟩
      rw [hportE, henv]
      exact ht
    | false =>
      obtain ⟨hsigned, ht⟩ := State.notify_of_full (s := s.eventTaken ts rest e) added uid hnotifies hfits
      rw [hnotify] at hsigned ht
      have hu3 : t.u3 = s.u3 := (congrArg State.u3 ht :)
      have hportE : t.portE = { script := rest, held := t.portE.held, out := s.portE.out } := congrArg State.portE ht
      have henv : t.env.region = if s.params.eventKeepsRegion then .event else e.region :=
        congrArg (fun v => v.env.region) ht
      refine ⟨⟨fun _ => ⟨by simp [hfits], fun _ => ⟨hsigned, hportE, henv.trans (by rw [hregion])⟩⟩,
        fun ha hq => (hnotDue ha hq).elim⟩, ?_⟩
      rw [hu3, hportE, henv]
      exact ht

/-! ## Attach -/

/-- The Event agent's turn with an attach next and nobody inside the exclusive region (43_client_sequences.md R218). -/
theorem step_of_attach {s : State} {ts : List Turn} {blob : Image} {handle : Nat} {rest : List EventJob}
    (hsched : s.schedule = .event :: ts) (hheld : s.portE.held = none)
    (hscript : s.portE.script = .attach blob handle :: rest) (hregion : s.env.region = .free) :
    step s = attachFigure blob handle { s with schedule := ts } (s.eventTaken ts rest s.env) := by
  rw [step_of_schedule_cons hsched]
  simp only [performTurn, eventTurn, hheld, hscript, if_pos hregion, State.eventTaken]

/-- While somebody is inside the region the attach waits (60_exceptions.md R266 duty 3). -/
theorem step_of_attach_waits {s : State} {ts : List Turn} {blob : Image} {handle : Nat} {rest : List EventJob}
    (hsched : s.schedule = .event :: ts) (hheld : s.portE.held = none)
    (hscript : s.portE.script = .attach blob handle :: rest) (hregion : s.env.region ≠ .free) :
    step s = .next { s with schedule := ts } := by
  rw [step_of_schedule_cons hsched]
  simp only [performTurn, eventTurn, hheld, hscript, if_neg hregion]

/-- An attach to a full registry reports it (R226, R231). -/
theorem attachFigure_of_full {blob : Image} {handle : Nat} {wait s : State} (h : s.env.freeSlot s.params = none) :
    attachFigure blob handle wait s = .next (s.report .full) := by
  simp only [attachFigure, h]

/-- Settles O51: the scan for a free slot comes first. -/
theorem attachToAFullRegistryChangesNothing : Obligations.AttachToAFullRegistryChangesNothing :=
  fun _ _ _ _ _ hsched hheld hscript hregion hfull =>
    (step_of_attach hsched hheld hscript hregion).trans (attachFigure_of_full (Env.freeSlot_eq_none hfull))

/-- The figure's uid is that of a present slot (R228). -/
theorem State.findByUid_uidOf_isSome_iff {s : State} {blob : Image} :
    (s.env.findByUid s.params (uidOf blob)).isSome = true ↔
      ∃ j ∈ s.presentSlots, s.env.slots[j].uid.toList = blob.toList.take 7 := by
  rw [Option.isSome_iff_ne_none, Ne, State.findByUid_eq_none_iff]
  simp [eq_uidOf_iff]

/-- The figure's uid is that of no present slot. -/
theorem State.findByUid_uidOf_eq_none {s : State} {blob : Image}
    (h : ∀ j ∈ s.presentSlots, s.env.slots[j].uid.toList ≠ blob.toList.take 7) :
    s.env.findByUid s.params (uidOf blob) = none :=
  State.findByUid_eq_none_iff.2 fun j hj he => h j hj (eq_uidOf_iff.1 he)

section Attach

variable {blob : Image} {handle : Nat} {wait s : State} {i : Fin 8}

/-- A uid that a present slot holds is refused (93_implementation_defined.md U14). -/
theorem attachFigure_of_duplicate (hslot : s.env.freeSlot s.params = some i)
    (h : ∃ j ∈ s.presentSlots, s.env.slots[j].uid.toList = blob.toList.take 7) :
    attachFigure blob handle wait s = .refused .duplicateUid := by
  simp only [attachFigure, hslot, if_pos (State.findByUid_uidOf_isSome_iff.2 h)]

/-- A handle that a present slot owns is refused (log entry 13). -/
theorem attachFigure_of_used_handle (hslot : s.env.freeSlot s.params = some i)
    (huid : ∀ j ∈ s.presentSlots, s.env.slots[j].uid.toList ≠ blob.toList.take 7)
    (h : ∃ j ∈ s.presentSlots, s.env.slots[j].handle = some handle) :
    attachFigure blob handle wait s = .refused .handleInUse := by
  simp [attachFigure, hslot, State.findByUid_uidOf_eq_none huid, State.ownsHandle_iff.2 h]

/-- A new figure: the registry change and the notification, or the wait (R218, R226). -/
theorem attachFigure_of_new (hslot : s.env.freeSlot s.params = some i)
    (h : ∀ j ∈ s.presentSlots,
      s.env.slots[j].uid.toList ≠ blob.toList.take 7 ∧ s.env.slots[j].handle ≠ some handle) :
    attachFigure blob handle wait s =
      if s.eventCanStart then
        .next ((({ s with env := s.env.fill i blob handle } : State).report (.loaded i.val)).notify true (uidOf blob))
      else .next wait := by
  have huid := State.findByUid_uidOf_eq_none fun j hj => (h j hj).1
  have hhandle := State.ownsHandle_eq_false_iff.2 fun j hj => (h j hj).2
  simp [attachFigure, hslot, huid, hhandle]

end Attach

/-- Settles O50: past the two refusals the attach waits, or the lowest free slot takes the figure and the notification
follows. -/
theorem attachTakesTheLowestFreeSlot : Obligations.AttachTakesTheLowestFreeSlot := by
  intro s ts blob handle rest hsched hheld hscript
  refine ⟨step_of_attach_waits hsched hheld hscript, fun hregion i hslot hfree hlower => ?_⟩
  have hstep := step_of_attach hsched hheld hscript hregion
  have hscan := Env.freeSlot_eq_some hslot hfree hlower
  refine ⟨fun hdup => hstep.trans (attachFigure_of_duplicate hscan hdup),
    fun huid hused => hstep.trans (attachFigure_of_used_handle hscan huid hused), fun hnew hdue hbusy => ?_,
    fun hnew hready => ?_⟩
  · exact (hstep.trans (attachFigure_of_new hscan hnew)).trans (if_neg (s.not_eventCanStart hdue hbusy))
  · obtain ⟨t, hnotify, hnotified, ht⟩ := State.notify_notified (s := s) ts (rest := rest)
      (e := { s.env.fill i blob handle with results := s.env.results ++ [.loaded i.val] }) true (uidOf blob) hregion
    have hstarts := (hstep.trans (attachFigure_of_new hscan hnew)).trans (if_pos (s.eventCanStart_iff.2 hready))
    rw [uidOf_toList] at hnotified
    exact ⟨t, uidOf blob, hstarts.trans (congrArg Host.Outcome.next hnotify), uidOf_toList blob, hnotified.due,
      hnotified.notDue, ht⟩

/-! ## Detach -/

/-- The Event agent's turn with a detach next and nobody inside the exclusive region (43_client_sequences.md R218). -/
theorem step_of_detach {s : State} {ts : List Turn} {slot : Nat} {rest : List EventJob}
    (hsched : s.schedule = .event :: ts) (hheld : s.portE.held = none)
    (hscript : s.portE.script = .detach slot :: rest) (hregion : s.env.region = .free) :
    step s = detachFigure slot { s with schedule := ts } (s.eventTaken ts rest s.env) := by
  rw [step_of_schedule_cons hsched]
  simp only [performTurn, eventTurn, hheld, hscript, if_pos hregion, State.eventTaken]

/-- While somebody is inside the region the detach waits (60_exceptions.md R266 duty 3). -/
theorem step_of_detach_waits {s : State} {ts : List Turn} {slot : Nat} {rest : List EventJob}
    (hsched : s.schedule = .event :: ts) (hheld : s.portE.held = none)
    (hscript : s.portE.script = .detach slot :: rest) (hregion : s.env.region ≠ .free) :
    step s = .next { s with schedule := ts } := by
  rw [step_of_schedule_cons hsched]
  simp only [performTurn, eventTurn, hheld, hscript, if_neg hregion]

/-- A detach of an index that is no slot is refused (log entry 13). -/
theorem detachFigure_of_no_slot {slot : Nat} {wait s : State} (h : s.params.numSlots ≤ slot) :
    detachFigure slot wait s = .refused .noSuchSlot := by
  unfold detachFigure
  split
  · rename_i hslot
    refine if_neg fun hexists => ?_
    have hlt := (slotExists_iff s.params ⟨slot, hslot⟩).1 hexists
    dsimp only at hlt
    omega
  · rfl

/-- A detach of an existing slot: the registry change and the notification, or the wait; an empty slot answers false
(R218, R227). -/
theorem detachFigure_of_slot {wait s : State} {i : Fin 8} (h : i.val < s.params.numSlots) :
    detachFigure i.val wait s =
      if s.env.slots[i].present then
        if s.eventCanStart then
          .next ((({ s with env := s.env.release i } : State).report (.removed true)).notify false s.env.slots[i].uid)
        else .next wait
      else .next (s.report (.removed false)) :=
  (dif_pos i.isLt).trans (if_pos ((slotExists_iff s.params i).2 h))

/-- A release of a slot that owns a handle: the slot is emptied but for its data, and the file is written (R227). -/
theorem Env.release_of_handle {e : Env} {i : Fin 8} {handle : Nat} (h : e.slots[i].handle = some handle) :
    e.release i =
      { e with
        slots := e.slots.set i
          { e.slots[i] with present := false, uid := Vector.replicate 7 0, handle := none }
        files := putFile handle e.slots[i].data e.files } := by
  simp only [Env.release, h]
  rfl

/-- Settles O52: the detach waits, answers false, or releases the slot, writes its file and notifies. -/
theorem detachPersistsAndReleases : Obligations.DetachPersistsAndReleases := by
  intro s ts slot rest hsched hheld hscript
  refine ⟨step_of_detach_waits hsched hheld hscript, fun hregion hno => ?_, ?_⟩
  · exact (step_of_detach hsched hheld hscript hregion).trans (detachFigure_of_no_slot hno)
  rintro i hregion rfl hslot
  have hstep := (step_of_detach hsched hheld hscript hregion).trans (detachFigure_of_slot hslot)
  refine ⟨fun handle hpresent hhandle hready => ?_, fun hpresent hdue hbusy => ?_, fun habsent => ?_⟩
  · have hrelease := Env.release_of_handle hhandle
    obtain ⟨t, hnotify, hnotified, ht⟩ := State.notify_notified (s := s) ts (rest := rest)
      (e := { s.env.release i with results := s.env.results ++ [.removed true] }) false s.env.slots[i].uid hregion
    have hnext := ((hstep.trans (if_pos hpresent)).trans (if_pos (s.eventCanStart_iff.2 hready))).trans
      (congrArg Host.Outcome.next hnotify)
    have hfiles : t.env.files = putFile handle s.env.slots[i].data s.env.files := by
      rw [ht, hrelease]
    rw [hrelease] at ht
    refine ⟨t, hnext, ?_, fun other hother => ?_, hnotified.due, hnotified.notDue, ?_⟩
    · rw [hfiles]
      exact getFile_putFile _ _ _
    · rw [hfiles]
      exact getFile_putFile_of_ne _ _ hother
    · rw [hfiles]
      exact ht
  · exact (hstep.trans (if_pos hpresent)).trans (if_neg (s.not_eventCanStart hdue hbusy))
  · exact hstep.trans (if_neg (Bool.eq_false_iff.1 habsent))

/-! ## Figure creation -/

/-- Port C's turn with a figure creation next (43_client_sequences.md R219). -/
theorem step_of_newFigure {s : State} {ts : List Turn} {identityType identityId : List Byte} {handle : Nat} {ok : Bool}
    {rest : List ComputeJob} (hsched : s.schedule = .compute :: ts) (hheld : s.portC.held = none)
    (hscript : s.portC.script = .newFigure identityType identityId handle ok :: rest) :
    step s = createFigure identityType identityId handle ok { s with schedule := ts }
      { s with schedule := ts, portC := { script := rest, held := none, out := s.portC.out } } := by
  rw [step_of_schedule_cons hsched]
  simp only [performTurn, computeTurn, hheld, hscript]

/-- A block that CRCSIGN made is CRC-signed (40_crc32.md R148). -/
theorem beWord_signBlock (b : Block) :
    beWord (signBlock b)[12] (signBlock b)[13] (signBlock b)[14] (signBlock b)[15] = figureCrc (signBlock b) :=
  (signBlock_eq_self_iff _).1 (signedBlocksAreTheFixedPoints.2 b)

/-- CRCSIGN keeps the window (R147). -/
theorem signBlock_getElem (b : Block) {k : Nat} (hk : k < 12) : (signBlock b)[k] = b[k] := by
  have hwindow : k < (b.toList.take 12).length := by simpa using hk
  rw [← Vector.getElem_toList (by simp; omega)]
  simp only [signBlock_toList, List.getElem_append_left hwindow, List.getElem_take, Vector.getElem_toList]

/-- U1 after CRCSIGN, when it was not busy (R147). -/
theorem U1.crcsign_of_not_busy {u : U1} (b : Block) (h : u.busy = false) :
    u.crcsign b = { crc := figureCrc (signBlock b), cidx := 12, blk := signBlock b, busy := false } := by
  rw [figureCrc_signBlock, figureCrc_eq_crcAccumulate, U1.crcsign, U1.crc32f, h]
  rfl

/-- The structural bytes of a built image (43_client_sequences.md R219, 30_encoding.md R110). -/
theorem builtImage_structural (b : Builder) (serial : Vector Byte 5) (random : Byte) (fresh : Image)
    (identityType identityId : List Byte) :
    let img := builtImage b serial random fresh identityType identityId
    img[0] = b.byte0 ∧ img[6] = b.byte6 ∧ img[7] = b.byte7 ∧ img[8] = b.byte8 ∧ img[9] = b.byte9 ∧
      img[10] = b.byte10 := by
  intro img
  have hbytes (k : Nat) (hk : k < 320) : img[k] = img.toList[k]'(by simpa using hk) := (Vector.getElem_toList _).symm
  simp [hbytes, img, builtImage_toList]

/-- A figure creation waits while U1 is busy (log entry 27). -/
theorem createFigure_of_busy {identityType identityId : List Byte} {handle : Nat} {ok : Bool} {wait s : State}
    (h : s.u1.busy = true) : createFigure identityType identityId handle ok wait s = .next wait :=
  if_pos h

/-- The new file appears: the store can be created, and nothing has the handle (43_client_sequences.md R231, log entry
14). -/
def State.canCreate (s : State) (handle : Nat) (ok : Bool) : Bool :=
  ok && (getFile handle s.env.files).isNone && !s.env.ownsHandle s.params handle

theorem State.canCreate_iff {s : State} {handle : Nat} {ok : Bool} :
    s.canCreate handle ok = true ↔ ok = true ∧ getFile handle s.env.files = none ∧
      ∀ i ∈ s.presentSlots, s.env.slots[i].handle ≠ some handle := by
  simp only [State.canCreate, Bool.and_eq_true, Bool.not_eq_true', Option.isNone_iff_eq_none,
    State.ownsHandle_eq_false_iff, and_assoc]

/-- The environment after a figure creation, which writes this image when it can, and reports whether it did (R219). -/
def Env.afterCreation (e : Env) (handle : Nat) (img : Image) (created : Bool) : Env :=
  { e with
    files := if created then putFile handle img e.files else e.files
    results := e.results ++ [.created created] }

/-- A figure creation signs the descriptor of the new image in any case, and writes the file when it can (R219). -/
theorem createFigure_of_not_busy {identityType identityId : List Byte} {handle : Nat} {ok : Bool} {wait s : State}
    (h : s.u1.busy = false) :
    let img := s.newImage identityType identityId
    let d := signBlock (descriptorOf img)
    createFigure identityType identityId handle ok wait s = .next
      { s with
        u1 := s.u1.crcsign (descriptorOf img)
        portC := s.portC.emit (.ok (.block d))
        drawn := s.drawn + creationDraws
        env := s.env.afterCreation handle (putBlock img 16 d) (s.canCreate handle ok) } := by
  intro img d
  refine (if_neg (Bool.eq_false_iff.1 h)).trans ?_
  cases hcan : s.canCreate handle ok with
  | true => exact if_pos hcan
  | false => exact if_neg (Bool.eq_false_iff.1 hcan)

/-- The new file: the Builder's structural bytes and the descriptor that CRCSIGN made (R219). -/
theorem newImage_putBlock (s : State) (identityType identityId : List Byte) (d : Block) :
    let img := putBlock (s.newImage identityType identityId) 16 d
    let b := s.params.builder
    img[0] = b.byte0 ∧ img[6] = b.byte6 ∧ img[7] = b.byte7 ∧ img[8] = b.byte8 ∧ img[9] = b.byte9 ∧
      img[10] = b.byte10 ∧ (img.toList.drop 16).take 16 = d.toList := by
  intro img b
  have hkeeps (k : Nat) (hk : k < 16) : img[k] = (s.newImage identityType identityId)[k] :=
    (putBlock_getElem _ d (by decide) k (by omega)).trans (if_neg (by omega))
  rw [hkeeps 0 (by decide), hkeeps 6 (by decide), hkeeps 7 (by decide), hkeeps 8 (by decide), hkeeps 9 (by decide),
    hkeeps 10 (by decide)]
  obtain ⟨h0, h6, h7, h8, h9, h10⟩ := builtImage_structural b
    (Vector.ofFn fun k : Fin 5 => Config.freeByte (s.drawn + k.val)) (Config.freeByte (s.drawn + 5))
    (Config.freeImage (s.drawn + 6)) identityType identityId
  exact ⟨h0, h6, h7, h8, h9, h10, putBlock_block _ d (by decide)⟩

/-- Bytes 0 to 11 of the descriptor that CRCSIGN makes are those the layout places there (30_encoding.md R110). -/
theorem signedDescriptor_getElem (s : State) (identityType identityId : List Byte) {k : Nat} (hk : k < 12) :
    (signBlock (descriptorOf (s.newImage identityType identityId)))[k] =
      descriptorValue (Config.freeByte (s.drawn + 5)) identityType identityId s.params.builder.layout[k] := by
  rw [signBlock_getElem _ hk, State.newImage]
  simp only [descriptorOf_builtImage]
  exact builtDescriptor_getElem _ _ _ _ k hk

/-- Settles O53: the creation waits, or signs the Builder's descriptor and writes the file when it can. -/
theorem createdFigureHasASignedDescriptor : Obligations.CreatedFigureHasASignedDescriptor := by
  intro s ts identityType identityId handle ok rest hsched hheld hscript
  have hstep := step_of_newFigure hsched hheld hscript
  refine ⟨fun hbusy => hstep.trans (createFigure_of_busy hbusy), fun hidle => ?_⟩
  have hcan := State.canCreate_iff (s := s) (handle := handle) (ok := ok)
  refine ⟨_, signBlock (descriptorOf (s.newImage identityType identityId)), Config.freeByte (s.drawn + 5),
    hstep.trans (createFigure_of_not_busy hidle), fun k hk => ?_, beWord_signBlock _, rfl,
    U1.crcsign_of_not_busy _ hidle, fun hok hnew hown => ?_, fun hfails => ?_, rfl⟩
  · exact (signedDescriptor_getElem s identityType identityId hk).trans (by cases s.params.builder.layout[k] <;> rfl)
  · have hyes := hcan.2 ⟨hok, hnew, hown⟩
    refine ⟨congrArg (fun c => s.env.results ++ [.created c]) hyes, ⟨_, ?_, newImage_putBlock s identityType identityId _⟩,
      fun other hother => ?_⟩
    · exact (congrArg (getFile handle) (if_pos hyes)).trans (getFile_putFile _ _ _)
    · exact (congrArg (getFile other) (if_pos hyes)).trans (getFile_putFile_of_ne _ _ hother)
  · have hno : s.canCreate handle ok = false := by
      rw [← Bool.not_eq_true, hcan]
      rintro ⟨hok, hnew, hown⟩
      rcases hfails with hfail | hfile | ⟨i, hi, howned⟩
      · simp [hok] at hfail
      · exact hfile hnew
      · exact hown i hi howned
    exact congrArg (s.env.afterCreation handle _) hno

end Sys2Proof.Machine
end

section
/-!
PROOFS. The statements of the family 60_exceptions.md. The order of the refusal checks is that of the decoder, the port
and the operation's own length check. A step that answers `ERR` is a refusal, because every other operation answers OK
or nothing: `AnswersOkOrRefuses` says this of each operation and of each turn.
-/

namespace Sys2Proof.Machine

/-! ## The order of the checks -/

/-- Two bytes of at most eleven bits are a header (log entry 2). -/
theorem decodeBytes_of_narrow_header (lo : Byte) {hi : Byte} (data : List Byte) (h : hi.toNat < 8) :
    decodeBytes .request (lo :: hi :: data) = decodeRequest (BitVec.truncate 11 (hi ++ lo)) data := if_pos h

/-- A header that selects no operation is a reserved code, whatever follows it (30_encoding.md R120, log entry 18). -/
theorem decodeRequest_of_reserved {hdr : BitVec 11} (data : List Byte) (h : selectOp hdr = none) :
    decodeRequest hdr data = .error (.reservedOp (headerOp hdr)) := by
  simp only [decodeRequest, h]

/-- A reserved code is refused on every port (60_exceptions.md R252). -/
theorem serveRequest_of_reserved {p : PortId} {bytes : List Byte} {op : BitVec 4} (s : State)
    (hdec : decodeBytes .request bytes = .error (.reservedOp op)) :
    serveRequest p bytes s = .next (s.refuse p .badOp) := by
  simp only [serveRequest, hdec]

/-- A valid operation is refused on a port that does not list it (60_exceptions.md R254). -/
theorem serveRequest_of_other_port {p : PortId} {bytes : List Byte} {i : Instr} (s : State)
    (hdec : decodeBytes .request bytes = .ok i) (hport : i.port ≠ p) :
    serveRequest p bytes s = .next (s.refuse p .port) := by
  simp only [serveRequest, hdec, if_neg hport]

/-- Settles O38: a header selects nothing or one operation; its port is looked at next, and U2 looks at `n` first. -/
theorem refusalChecksInOrder : Obligations.RefusalChecksInOrder := by
  intro p lo hi data s s' hturn hnarrow hdr
  have hstep := step_of_turnPresents hturn
  have hdec : decodeBytes .request (lo :: hi :: data) = decodeRequest hdr data :=
    decodeBytes_of_narrow_header lo data hnarrow
  refine ⟨fun hreserved => ?_, fun o hcode hlen => ?_⟩
  · have hnone : selectOp hdr = none := (selectOp_eq_none_iff hdr).2 ((code_reserved_iff _).2 hreserved)
    exact hstep.trans (serveRequest_of_reserved s' (hdec.trans (decodeRequest_of_reserved data hnone)))
  · have hrequest := hdec.trans (decodeRequest_of_selects ((selectOp_eq_some_iff hdr o).2 hcode) hlen)
    have hlisted := buildRequest_port o (headerN hdr) data
    refine ⟨fun hother => ?_, fun hport ho hn => ?_, fun hport ho hn => ?_⟩
    · exact hstep.trans (serveRequest_of_other_port s' hrequest (hlisted.trans_ne hother))
    · subst ho hport
      exact (hstep.trans (serveRequest_of_decodes s' hrequest hlisted)).trans
        (exec_csum_of_length_out_of_range _ s' hn)
    · subst ho hport
      exact (hstep.trans (serveRequest_of_decodes s' hrequest hlisted)).trans
        (exec_csign_of_length_out_of_range _ s' hn)

/-! ## The ERR responses and the units -/

/-- The reason codes among a list of responses (60_exceptions.md R251). -/
def errorsOf (out : List Response) : List RefCode :=
  out.filterMap fun
    | .err c => some c
    | .ok _ => none

/-- The reason codes every port has answered. -/
def State.errors (s : State) (p : PortId) : List RefCode := errorsOf (s.outOf p)

/-- The state of the block: its three units. -/
def State.units (s : State) : U1 × U2 × U3 := (s.u1, s.u2, s.u3)

/-- From `s` to `t` no port answers `ERR`, or the block's state stays. -/
def AnswersOkOrRefuses (s t : State) : Prop := t.errors = s.errors ∨ t.units = s.units

@[simp] theorem errorsOf_append_ok (out : List Response) (r : Result) : errorsOf (out ++ [.ok r]) = errorsOf out := by
  simp [errorsOf]

@[simp] theorem errorsOf_append_err (out : List Response) (c : RefCode) :
    errorsOf (out ++ [.err c]) = errorsOf out ++ [c] := by
  simp [errorsOf]

/-- A new `ERR` is seen on its port. -/
theorem errors_ne_of_err {s t : State} {p : PortId} {c : RefCode} (h : t.outOf p = s.outOf p ++ [.err c]) :
    t.errors ≠ s.errors := fun he => by
  have hp : t.errors p = s.errors p := congrFun he p
  simp [State.errors, h] at hp

/-! ## Operations that answer OK or nothing -/

@[simp] theorem State.complete_ok_errors (s : State) (p : PortId) (r : Result) :
    (s.complete p (.ok r)).errors = s.errors := by
  funext q
  simp only [State.errors, State.complete_outOf]
  split <;> simp

@[simp] theorem State.hold_errors (s : State) (p : PortId) (i : Instr) : (s.hold p i).errors = s.errors := by
  funext q
  simp only [State.errors, State.hold_outOf]

@[simp] theorem State.clientSign_errors (s : State) (f : Frame) (n : Nat) : (s.clientSign f n).errors = s.errors := by
  funext q
  cases q <;> simp [State.errors, State.outOf]

@[simp] theorem State.clientWake_errors (s : State) : s.clientWake.errors = s.errors := by
  funext q
  cases q <;> simp [State.errors, State.outOf]

/-- PUSHR appends and completes, or holds. -/
@[simp] theorem State.pushReply_errors (s : State) (n : BitVec 7) (f : Frame) :
    (s.pushReply n f).errors = s.errors := by
  rcases s.pushReply_cases n f with ⟨-, e⟩ | ⟨-, e⟩
  · exact e ▸ State.complete_ok_errors _ _ _
  · exact e ▸ State.hold_errors _ _ _

/-- PUSHN appends and completes, or holds. -/
@[simp] theorem State.pushNotification_errors (s : State) (n : BitVec 7) (f : Frame) :
    (s.pushNotification n f).errors = s.errors := by
  rcases s.pushNotification_cases n f with ⟨-, e⟩ | ⟨-, e⟩
  · exact e ▸ State.complete_ok_errors _ _ _
  · exact e ▸ State.hold_errors _ _ _

/-- The region that a command's reply enters is no answer. -/
@[simp] theorem State.reply_errors (s : State) (f : Frame) : (s.reply f).errors = s.errors := by
  rw [← s.pushReply_errors 0 f]
  simp only [State.reply]
  split <;> rfl

@[simp] theorem State.signAndReply_errors (s : State) (f : Frame) (n : Nat) :
    (s.signAndReply f n).errors = s.errors := by
  simp [State.signAndReply]

/-- A Write Block answers nothing. -/
@[simp] theorem State.writeBlock_errors (s : State) (uid : Uid) (sector block : Byte) (payload : Block) :
    (s.writeBlock uid sector block payload).errors = s.errors := by
  rcases s.writeBlock_cases uid sector block payload with ⟨-, e⟩ | ⟨i, -, -, uid', k, -, -, e⟩
  · rw [e]
  · rw [e]
    rfl

/-- A notification signs and pushes, or does nothing. -/
@[simp] theorem State.notify_errors (s : State) (added : Bool) (uid : Uid) : (s.notify added uid).errors = s.errors := by
  unfold State.notify
  split
  · extract_lets f t
    have hpush : t.errors = s.errors := by simp [t]
    split <;> exact hpush
  · rfl

/-- A delivery answers OK (42_mux.md R191). -/
theorem State.deliver_errors (s : State) : s.deliver.errors = s.errors := by
  rcases s.deliver_cases with ⟨-, e⟩ | ⟨-, f, u, -, e⟩ | ⟨-, -, e⟩
  · rw [e]
  · rw [e]
    funext q
    cases q <;> simp [State.errors, State.outOf]
  · rw [e]
    rfl

/-! ## Requests -/

/-- A refusal changes no state of the block (60_exceptions.md R251, R262). -/
theorem answers_refuse (s : State) (p : PortId) (c : RefCode) : AnswersOkOrRefuses s (s.refuse p c) :=
  .inr (by simp [State.units])

/-- A client sequence that signs holds, or its body runs. -/
theorem clientSequence_errors {i : Instr} {s u t : State} (hbody : u.errors = s.errors)
    (h : clientSequence i s (.next u) = .next t) : t.errors = s.errors := by
  rcases clientSequence_cases i s (.next u) with ⟨-, e⟩ | ⟨-, e⟩
  · cases e.symm.trans h
    exact hbody
  · cases e.symm.trans h
    exact s.hold_errors .w i

/-- CSUM is refused, holds, or completes (41_checksum.md R161). -/
theorem execCsum_answers {n : BitVec 7} {f : Frame} {s t : State} (h : execCsum n f s = .next t) :
    AnswersOkOrRefuses s t := by
  unfold execCsum at h
  repeat' split at h
  all_goals cases h
  · exact answers_refuse s .c .len
  · exact .inl (s.hold_errors .c _)
  · exact .inl (State.complete_ok_errors _ _ _)

/-- CSIGN is refused, holds, or completes (41_checksum.md R161). -/
theorem execCsign_answers {n : BitVec 7} {f : Frame} {s t : State} (h : execCsign n f s = .next t) :
    AnswersOkOrRefuses s t := by
  unfold execCsign at h
  repeat' split at h
  all_goals cases h
  · exact answers_refuse s .c .len
  · exact .inl (s.hold_errors .c _)
  · exact .inl (State.complete_ok_errors _ _ _)

/-- Running an instruction: only the length checks of U2 refuse (60_exceptions.md R253). -/
theorem exec_answers {i : Instr} {s t : State} (h : exec i s = .next t) : AnswersOkOrRefuses s t := by
  cases i with
  | csum n f => exact execCsum_answers h
  | csign n f => exact execCsign_answers h
  | crc32f n b | crcsign n b =>
    simp only [exec, execCrc32f, execCrcsign] at h
    split at h
    · cases h
      exact .inl (s.hold_errors .c _)
    · cases h
      exact .inl (State.complete_ok_errors _ _ _)
  | pushr n f =>
    cases h
    exact .inl (s.pushReply_errors n f)
  | pushn n f =>
    cases h
    exact .inl (s.pushNotification_errors n f)
  | wake n =>
    cases h
    exact .inl (State.complete_ok_errors _ _ _)
  | poll n =>
    simp only [exec, execPoll] at h
    split at h
    · cases h
      exact .inl (s.hold_errors .r _)
    · cases h
      exact .inl (funext fun q => by cases q <;> rfl)
  | cmdWake seq | cmdAckC0 seq | cmdAckC3 seq | cmdRead seq uid sector block
  | cmdWrite seq uid sector block payload =>
    exact .inl (clientSequence_errors (by simp) h)
  | cmdList seq =>
    simp only [exec, execCmdList] at h
    split at h
    · exact .inl (clientSequence_errors (by simp) h)
    · cases h
  | cmdUnknown code =>
    cases h
    exact .inl (s.reply_errors _)

/-- Serving a request's bytes. -/
theorem serveRequest_answers {p : PortId} {bytes : List Byte} {s t : State} (h : serveRequest p bytes s = .next t) :
    AnswersOkOrRefuses s t := by
  rcases serveRequest_cases p bytes s with ⟨-, e⟩ | e | ⟨i, -, -, e⟩ | ⟨i, -, -, e⟩
  · cases e.symm.trans h
    exact answers_refuse _ _ _
  · cases e.symm.trans h
  · cases e.symm.trans h
    exact answers_refuse _ _ _
  · exact exec_answers (e.symm.trans h)

/-! ## The environment's events -/

/-- An attach waits, or reports and notifies: it answers no `ERR`. -/
theorem attachFigure_errors {blob : Image} {handle : Nat} {wait s t : State}
    (h : attachFigure blob handle wait s = .next t) (hwait : wait.errors = s.errors) : t.errors = s.errors := by
  unfold attachFigure at h
  repeat' split at h
  case h_1 =>
    cases h
    rfl
  case h_2.isFalse.isFalse.isTrue =>
    cases h
    exact State.notify_errors _ _ _
  case h_2.isFalse.isFalse.isFalse =>
    cases h
    exact hwait
  all_goals cases h

/-- A detach waits, or reports and notifies: it answers no `ERR`. -/
theorem detachFigure_errors {slot : Nat} {wait s t : State} (h : detachFigure slot wait s = .next t)
    (hwait : wait.errors = s.errors) : t.errors = s.errors := by
  unfold detachFigure at h
  repeat' split at h
  case isTrue.isTrue.isTrue.isTrue =>
    cases h
    exact State.notify_errors _ _ _
  case isTrue.isTrue.isTrue.isFalse =>
    cases h
    exact hwait
  case isTrue.isTrue.isFalse =>
    cases h
    rfl
  all_goals cases h

/-- A figure creation waits, or its CRCSIGN is answered OK on port C. -/
theorem createFigure_errors {identityType identityId : List Byte} {handle : Nat} {storeOk : Bool} {wait s t : State}
    (h : createFigure identityType identityId handle storeOk wait s = .next t) (hwait : wait.errors = s.errors) :
    t.errors = s.errors := by
  unfold createFigure at h
  split at h
  · cases h
    exact hwait
  · extract_lets img d u at h
    have hsigned : u.errors = s.errors := by
      funext q
      cases q <;> simp [u, State.errors, State.outOf]
    split at h <;> cases h <;> exact hsigned

/-! ## The turns -/

/-- Nothing happens. -/
theorem AnswersOkOrRefuses.refl (s : State) : AnswersOkOrRefuses s s := .inl rfl

/-- Taking a turn or a script entry first answers nothing and leaves the units. -/
theorem AnswersOkOrRefuses.of_taken {s u t : State} (h : AnswersOkOrRefuses u t) (herrors : u.errors = s.errors)
    (hunits : u.units = s.units) : AnswersOkOrRefuses s t :=
  h.imp (·.trans herrors) (·.trans hunits)

/-- The Writer leaving its region answers nothing and leaves the units. -/
theorem AnswersOkOrRefuses.writerLeaves {s t : State} (h : AnswersOkOrRefuses s t) :
    AnswersOkOrRefuses s t.writerLeaves := by
  unfold State.writerLeaves
  split <;> exact h

/-- Likewise the Event agent. -/
theorem AnswersOkOrRefuses.eventLeaves {s t : State} (h : AnswersOkOrRefuses s t) :
    AnswersOkOrRefuses s t.eventLeaves := by
  unfold State.eventLeaves
  split <;> exact h

/-- Port C's turn. -/
theorem computeTurn_answers {s t : State} (h : computeTurn s = .next t) : AnswersOkOrRefuses s t := by
  unfold computeTurn at h
  split at h
  · exact exec_answers h
  · split at h
    · cases h
      exact .refl _
    · exact (serveRequest_answers h).of_taken rfl rfl
    · exact AnswersOkOrRefuses.of_taken (.inl (createFigure_errors h rfl)) rfl rfl

/-- Port W's turn. -/
theorem writerTurn_answers {s t : State} (h : writerTurn s = .next t) : AnswersOkOrRefuses s t := by
  unfold writerTurn at h
  split at h
  · split at h
    · cases h
      exact .refl _
    · obtain ⟨u, hexec, rfl⟩ := mapNext_eq_next.1 h
      exact (exec_answers hexec).writerLeaves
  · split at h
    · cases h
      exact .refl _
    · exact (serveRequest_answers h).of_taken rfl rfl
    · split at h
      · exact (exec_answers h).of_taken rfl rfl
      · cases h
        exact .refl _

/-- Port E's turn. -/
theorem eventTurn_answers {s t : State} (h : eventTurn s = .next t) : AnswersOkOrRefuses s t := by
  unfold eventTurn at h
  split at h
  · obtain ⟨u, hexec, rfl⟩ := mapNext_eq_next.1 h
    exact (exec_answers hexec).eventLeaves
  · split at h
    · cases h
      exact .refl _
    · exact (serveRequest_answers h).of_taken rfl rfl
    · split at h
      · exact AnswersOkOrRefuses.of_taken (.inl (attachFigure_errors h rfl)) rfl rfl
      · cases h
        exact .refl _
    · split at h
      · exact AnswersOkOrRefuses.of_taken (.inl (detachFigure_errors h rfl)) rfl rfl
      · cases h
        exact .refl _

/-- Port R's turn. -/
theorem readerTurn_answers {s t : State} (h : readerTurn s = .next t) : AnswersOkOrRefuses s t := by
  unfold readerTurn at h
  split at h
  · cases h
    exact .refl _
  · split at h
    · exact exec_answers h
    · split at h
      · cases h
        exact .refl _
      · exact (serveRequest_answers h).of_taken rfl rfl
      · split at h
        · exact (exec_answers h).of_taken rfl rfl
        · cases h

/-- Every turn: `rst` drops what is in flight without an answer (70_reset_and_hazards.md R283). -/
theorem performTurn_answers {turn : Turn} {s t : State} (h : performTurn turn s = .next t) :
    AnswersOkOrRefuses s t := by
  cases turn with
  | compute => exact computeTurn_answers h
  | writer => exact writerTurn_answers h
  | event => exact eventTurn_answers h
  | reader => exact readerTurn_answers h
  | deliver =>
    cases h
    exact .inl s.deliver_errors
  | tick =>
    cases h
    rw [s.backoffTick_eq]
    exact .inl rfl
  | hostCall c =>
    cases h
    exact .refl _
  | rst =>
    cases h
    exact .inl rfl

/-- Every step. -/
theorem step_answers {s t : State} (h : step s = .next t) : AnswersOkOrRefuses s t :=
  (performTurn_answers ((step_eq_performTurn s).symm.trans h)).of_taken rfl rfl

/-- Settles O39: a step answers no `ERR`, or it leaves the units. -/
theorem refusedRequestChangesNoBlockState : Obligations.RefusedRequestChangesNoBlockState := by
  intro s t p c hstep herr
  have hunits : t.units = s.units := (step_answers hstep).resolve_left (errors_ne_of_err herr)
  simpa [State.units] using hunits

end Sys2Proof.Machine
end

section
/-!
PROOFS. The statement of the family 70_reset_and_hazards.md: what asserting `rst` resets, drops and leaves alone.
-/

namespace Sys2Proof.Machine

/-! ## What reset does to the ports -/

/-- No request survives reset on any port (70_reset_and_hazards.md R283). -/
@[simp] theorem State.assertReset_heldOn (s : State) (p : PortId) : s.assertReset.heldOn p = none := by
  cases p <;> rfl

/-- A dropped request gets no response (70_reset_and_hazards.md R283). -/
@[simp] theorem State.assertReset_outOf (s : State) (p : PortId) : s.assertReset.outOf p = s.outOf p := by
  cases p <;> rfl

/-! ## The statement -/

/-- A turn of `rst` is `assertReset` on the rest of the schedule. -/
theorem step_of_rst {s : State} {ts : List Turn} (h : s.schedule = .rst :: ts) :
    step s = .next (State.assertReset { s with schedule := ts }) := step_of_schedule_cons h

/-- The responses do not depend on the schedule. -/
theorem State.outOf_schedule (s : State) (ts : List Turn) (p : PortId) :
    State.outOf { s with schedule := ts } p = s.outOf p := by
  cases p <;> rfl

/-- Settles O55: the units are those after reset, the ports only drop what they hold, and the other fields stay. -/
theorem rstDropsWhatIsInFlight : Obligations.RstDropsWhatIsInFlight := by
  intro s ts hsched
  refine ⟨_, step_of_rst hsched, State.assertReset_u3 _, ?_⟩
  have hports (p : PortId) : (State.assertReset { s with schedule := ts }).heldOn p = none ∧
      (State.assertReset { s with schedule := ts }).outOf p = s.outOf p :=
    ⟨State.assertReset_heldOn _ p, (State.assertReset_outOf _ p).trans (s.outOf_schedule ts p)⟩
  simp [hports, U1.afterReset, U2.afterReset]

end Sys2Proof.Machine
end
